-- ==== Sys2Proof/Word.lean ====
section
/-! DEFINITION. The word types of the engine (00_scope.md section 5). -/

namespace Sys2Proof

/-- A byte, `0..255` (00_scope.md section 5). -/
abbrev Byte := BitVec 8

/-- The 16-bit data field of a result (30_encoding.md R76). -/
abbrev Half := BitVec 16

end Sys2Proof
end

