-- ==== Sys2Proof/Config.lean ====
section
/-! DEFINITION. Constants (00_scope.md R4), parameters (R5), what crosses the port bus, and the free values. -/

namespace Sys2Proof

/-- The two ports the engine uses (20_memory.md R41). -/
inductive Port where
  | data
  | sc
  deriving DecidableEq, Repr, Inhabited

/-- Direction of a port operation (30_encoding.md R73). -/
inductive Dir where
  | read
  | write
  deriving DecidableEq, Repr, Inhabited

/-- Who issues a port operation: the engine, or any other agent that can reach the ports (20_memory.md R51, R55). -/
inductive Master where
  | engine
  | other
  deriving DecidableEq, Repr, Inhabited

/-- One request on the port bus (40_port_access.md R105): `addr` is the address driven for the port, `wdata` the word
driven, 0 for a read. -/
structure PortRequest where
  dir : Dir
  port : Port
  addr : Nat
  wdata : Nat
  deriving DecidableEq, Repr, Inhabited

/-- One port operation of a trace (30_encoding.md R73), and who made it. A failed operation has no byte. -/
structure PortEvent where
  master : Master
  dir : Dir
  port : Port
  byte : Option Byte
  deriving DecidableEq, Repr, Inhabited

/-- What the access mechanism does with one request (40_port_access.md R103, R105; 60_exceptions.md R193).
`fail reached` answers `err` = 1, and `reached` says whether the EC saw the operation; `hang` is no answer yet. -/
inductive MechOutcome where
  | pass
  | fail (reached : Bool)
  | hang
  deriving DecidableEq, Repr, Inhabited

namespace Config

/-! ### The values the source gives its constants (00_scope.md R4) -/

def dataPort : Byte := 0x62
def scPort : Byte := 0x66
def cmdRead : Byte := 0x80
def cmdWrite : Byte := 0x81
def regFanStatus : Byte := 0x2F
def regRpmLsb : Byte := 0x84
def regRpmMsb : Byte := 0x85
def tempBase : Byte := 0x78
def levelAuto : Byte := 0x80
def levelFull : Byte := 0x40
def levelMax : Byte := 7
def sensorMax : Byte := 7
def timeoutMs : Nat := 200
def rpmAbsent : Half := 0xFFFF
def tempAbsent : Byte := 0x80

/-! ### Free values: no body, so nothing can evaluate them (log entries 5, 6, 7, 11, 12, 21, 22) -/

/-- `TICK_HZ`: open, no default (00_scope.md R5, 92_eei_decisions.md D7). -/
opaque tickHz : Nat

/-- The bus word the oracle EC answers to a read (20_memory.md R47), by the history of port operations and a counter. -/
opaque busWord (history : List PortEvent) (draw : Nat) (p : Port) : Nat

/-- What the access mechanism does with a request (10_state.md R29, 60_exceptions.md R193). -/
opaque mechOutcome (history : List PortEvent) (draw : Nat) (r : PortRequest) : MechOutcome

/-- How far the clock of the abstract timing model moves (60_exceptions.md R200). -/
opaque clockAdvance (history : List PortEvent) (draw : Nat) : Nat

/-- The data registers after a reset event (93_implementation_defined.md U16), by counter and register index. -/
opaque resetByte (draw index : Nat) : Byte

/-- `DEADLINE` after a reset event (93_implementation_defined.md U16). -/
opaque resetDeadline (draw : Nat) : Nat

/-- The control loop's current fan level when it starts (45_consumers.md R165, 91_not_in_source.md N15). -/
opaque initialLevel (draw : Nat) : Option Byte

/-- The level the curve gives where 45_consumers.md R161 states none (91_not_in_source.md N14). -/
opaque curveOpenLevel (curve : List (Int × Byte)) (reading : Int) : Byte

end Config

/-- The constants of 00_scope.md R4: named parameters, fixed for a run (log entry 1). -/
structure Constants where
  dataPort : Byte
  scPort : Byte
  cmdRead : Byte
  cmdWrite : Byte
  regFanStatus : Byte
  regRpmLsb : Byte
  regRpmMsb : Byte
  tempBase : Byte
  levelAuto : Byte
  levelFull : Byte
  levelMax : Byte
  sensorMax : Byte
  timeoutMs : Nat
  rpmAbsent : Half
  tempAbsent : Byte
  deriving DecidableEq, Repr

/-- The source's values, the defaults of 00_scope.md R4. -/
def Constants.source : Constants where
  dataPort := Config.dataPort
  scPort := Config.scPort
  cmdRead := Config.cmdRead
  cmdWrite := Config.cmdWrite
  regFanStatus := Config.regFanStatus
  regRpmLsb := Config.regRpmLsb
  regRpmMsb := Config.regRpmMsb
  tempBase := Config.tempBase
  levelAuto := Config.levelAuto
  levelFull := Config.levelFull
  levelMax := Config.levelMax
  sensorMax := Config.sensorMax
  timeoutMs := Config.timeoutMs
  rpmAbsent := Config.rpmAbsent
  tempAbsent := Config.tempAbsent

/-- The port address of a port (00_scope.md R4). -/
def Port.address (k : Constants) : Port → Byte
  | .data => k.dataPort
  | .sc => k.scPort

/-- The parameters of 00_scope.md R4 and R5; fixed for a run, quantified over (10_state.md R29; log entry 1). -/
structure Params where
  k : Constants
  obfMask : Byte
  ibfMask : Byte
  tickHz : Nat
  portOpTicks : Nat
  portAddrWidth : Nat
  portBusWidth : Nat
  hasFrontEnd : Bool
  deriving DecidableEq, Repr

/-- The defaults of 00_scope.md R4 and R5; `TICK_HZ` has none and stays free. -/
def Params.default : Params where
  k := Constants.source
  obfMask := 0x01
  ibfMask := 0x02
  tickHz := Config.tickHz
  portOpTicks := 1
  portAddrWidth := 16
  portBusWidth := 32
  hasFrontEnd := true

/-- The width of an address on the port bus; below 8 bits, where 92_eei_decisions.md D20 allows no width, 8 (log entry 2). -/
def Params.addrBits (p : Params) : Nat := max 8 p.portAddrWidth

/-- The width of a word on the port bus; below 8 bits, where 92_eei_decisions.md D20 allows no width, 8 (log entry 2). -/
def Params.busBits (p : Params) : Nat := max 8 p.portBusWidth

/-- A word on the port bus (40_port_access.md R105). -/
def Params.onBus (p : Params) (w : Nat) : Nat := w % 2 ^ p.busBits

/-- The address of a port on the port bus, zero-extended to its width (00_scope.md R5, 40_port_access.md R101). -/
def Params.portAddress (p : Params) (port : Port) : Nat := ((port.address p.k).zeroExtend p.addrBits).toNat

/-- The request of `IoRead` (40_port_access.md R101). -/
def readRequest (p : Params) (port : Port) : PortRequest :=
  { dir := .read, port := port, addr := p.portAddress port, wdata := 0 }

/-- The request of `IoWrite` of a byte, zero-extended to the bus width (40_port_access.md R102, 30_encoding.md R85). -/
def writeRequest (p : Params) (port : Port) (b : Byte) : PortRequest :=
  { dir := .write, port := port, addr := p.portAddress port, wdata := (b.zeroExtend p.busBits).toNat }

/-- A mask with exactly one bit set (30_encoding.md R71). -/
def oneBit (m : Byte) : Bool := m != 0 && (m &&& (m - 1)) == 0

/-- What 00_scope.md R5, 30_encoding.md R71, R72, R81 and 92_eei_decisions.md D20 ask of the parameters. -/
def Params.wf (p : Params) : Bool :=
  oneBit p.obfMask && oneBit p.ibfMask && p.obfMask != p.ibfMask &&
    decide (1 ≤ p.portOpTicks) && p.k.cmdRead != p.k.cmdWrite && p.k.dataPort != p.k.scPort &&
    decide (p.k.tempBase.toNat + p.k.sensorMax.toNat ≤ 255) && decide (8 ≤ p.portAddrWidth) && decide (8 ≤ p.portBusWidth)

end Sys2Proof
end

