-- ==== Sys2Proof/Syntax.lean ====
section
/-! DEFINITION. The rows of spec/opcode_table.json, one constructor each. A constructor carries every bit of its
row that the row does not fix, ignored bits too (30_encoding.md R88), so that decoding drops nothing. -/

namespace Sys2Proof

inductive Instr where
  -- `REQ` words (30_encoding.md R75): fields `A` and `B`
  | readRegister (o b : Byte)
  | writeRegister (o v : Byte)
  | fanRpmRead (a b : Byte)
  | tempRead (i b : Byte)
  | fanLevelWrite (a l : Byte)
  | reservedOp5 (a b : Byte)
  | reservedOp6 (a b : Byte)
  | reservedOp7 (a b : Byte)
  -- `CMD` bytes (30_encoding.md R72)
  | rdEc
  | wrEc
  -- `PORTOP` words (30_encoding.md R73): the byte written, or the byte recorded as the answer
  | inStatus (s : Byte)
  | inData (d : Byte)
  | outCmd (c : Byte)
  | outData (b : Byte)
  -- `STATUS` bytes (30_encoding.md R71): the byte that satisfies the poll
  | waitIbfClear (s : Byte)
  | waitObfSet (s : Byte)
  -- `STEP` codes (30_encoding.md R78)
  | stepIdle
  | stepR1
  | stepR2
  | stepR3
  | stepR4
  | stepR5
  | stepR6
  | stepR7
  | stepW1
  | stepW2
  | stepW3
  | stepW4
  | stepW5
  | stepW6
  | stepW7
  deriving DecidableEq, Repr

/-- Where a word arrives. The five formats of 30_encoding.md R70 and the `STEP` code are told apart by the wire or
register that carries them, not by their bits; a `STATUS` byte is read for the poll that asks (R112, R113). -/
inductive Channel where
  | req
  | cmd
  | portop
  | pollIbf
  | pollObf
  | step
  deriving DecidableEq, Repr

/-- Width of a channel's word (30_encoding.md R70, R78). -/
def Channel.width : Channel → Nat
  | .req => 19
  | .cmd => 8
  | .portop => 17
  | .pollIbf => 8
  | .pollObf => 8
  | .step => 4

/-- The channel an instruction's word travels on. -/
def Instr.channel : Instr → Channel
  | .readRegister _ _ => .req
  | .writeRegister _ _ => .req
  | .fanRpmRead _ _ => .req
  | .tempRead _ _ => .req
  | .fanLevelWrite _ _ => .req
  | .reservedOp5 _ _ => .req
  | .reservedOp6 _ _ => .req
  | .reservedOp7 _ _ => .req
  | .rdEc => .cmd
  | .wrEc => .cmd
  | .inStatus _ => .portop
  | .inData _ => .portop
  | .outCmd _ => .portop
  | .outData _ => .portop
  | .waitIbfClear _ => .pollIbf
  | .waitObfSet _ => .pollObf
  | .stepIdle => .step
  | .stepR1 => .step
  | .stepR2 => .step
  | .stepR3 => .step
  | .stepR4 => .step
  | .stepR5 => .step
  | .stepR6 => .step
  | .stepR7 => .step
  | .stepW1 => .step
  | .stepW2 => .step
  | .stepW3 => .step
  | .stepW4 => .step
  | .stepW5 => .step
  | .stepW6 => .step
  | .stepW7 => .step

end Sys2Proof
end

