-- ==== Sys2Proof/WellFormed.lean ====
section
/-! DEFINITION. Which terms of `Instr` are instructions. Operand widths are in the types; the two `STATUS` rows fix the
bit of their byte that a mask parameter names (30_encoding.md R71, 10_state.md R29). -/

namespace Sys2Proof

def Instr.WellFormed (p : Params) : Instr → Bool
  | .waitIbfClear s => s &&& p.ibfMask == 0
  | .waitObfSet s => s &&& p.obfMask != 0
  | .readRegister _ _ => true
  | .writeRegister _ _ => true
  | .fanRpmRead _ _ => true
  | .tempRead _ _ => true
  | .fanLevelWrite _ _ => true
  | .reservedOp5 _ _ => true
  | .reservedOp6 _ _ => true
  | .reservedOp7 _ _ => true
  | .rdEc => true
  | .wrEc => true
  | .inStatus _ => true
  | .inData _ => true
  | .outCmd _ => true
  | .outData _ => true
  | .stepIdle => true
  | .stepR1 => true
  | .stepR2 => true
  | .stepR3 => true
  | .stepR4 => true
  | .stepR5 => true
  | .stepR6 => true
  | .stepR7 => true
  | .stepW1 => true
  | .stepW2 => true
  | .stepW3 => true
  | .stepW4 => true
  | .stepW5 => true
  | .stepW6 => true
  | .stepW7 => true

end Sys2Proof
end

