-- ==== Sys2Proof/Decode.lean ====
section
/-! DEFINITION. Decoding and encoding of the words of spec/opcode_table.json (30_encoding.md). Ports, command codes and
masks are the parameters' (10_state.md R29); the table's own numbers are their defaults. -/

namespace Sys2Proof

/-- Why a word is no instruction. -/
inductive DecodeError where
  | wordTooWide
  | commandUnknown
  | portUnknown
  | statusDoesNotSatisfy
  | stepCodeUnused
  deriving DecidableEq, Repr

/-- Byte `k` of a word, bit 0 the least significant (00_scope.md section 5). -/
def byteOf (w k : Nat) : Byte := BitVec.ofNat 8 (w / 2 ^ (8 * k))

/-- `REQ` = `OP` [18:16], `A` [15:8], `B` [7:0] (30_encoding.md R74, R75). Every word is a request. -/
def decodeReq (w : Nat) : Except DecodeError Instr :=
  match w / 2 ^ 16 with
  | 0 => .ok (.readRegister (byteOf w 1) (byteOf w 0))
  | 1 => .ok (.writeRegister (byteOf w 1) (byteOf w 0))
  | 2 => .ok (.fanRpmRead (byteOf w 1) (byteOf w 0))
  | 3 => .ok (.tempRead (byteOf w 1) (byteOf w 0))
  | 4 => .ok (.fanLevelWrite (byteOf w 1) (byteOf w 0))
  | 5 => .ok (.reservedOp5 (byteOf w 1) (byteOf w 0))
  | 6 => .ok (.reservedOp6 (byteOf w 1) (byteOf w 0))
  | 7 => .ok (.reservedOp7 (byteOf w 1) (byteOf w 0))
  | _ => .error .wordTooWide

/-- `CMD`: the whole byte is the code (30_encoding.md R72). -/
def decodeCmd (p : Params) (w : Nat) : Except DecodeError Instr :=
  if byteOf w 0 = p.k.cmdRead then .ok .rdEc
  else if byteOf w 0 = p.k.cmdWrite then .ok .wrEc
  else .error .commandUnknown

/-- `PORTOP`: `dir` 16, `port` 15..8, `byte` 7..0 (30_encoding.md R73). -/
def decodePortop (p : Params) (w : Nat) : Except DecodeError Instr :=
  match w / 2 ^ 16, byteOf w 1 == p.k.scPort, byteOf w 1 == p.k.dataPort with
  | 0, true, _ => .ok (.inStatus (byteOf w 0))
  | 0, false, true => .ok (.inData (byteOf w 0))
  | 1, true, _ => .ok (.outCmd (byteOf w 0))
  | 1, false, true => .ok (.outData (byteOf w 0))
  | 0, false, false => .error .portUnknown
  | 1, false, false => .error .portUnknown
  | _, _, _ => .error .wordTooWide

/-- The `STATUS` byte that satisfies `WAIT_IBF_CLEAR` (30_encoding.md R71, 41_polling.md R112). -/
def decodePollIbf (p : Params) (w : Nat) : Except DecodeError Instr :=
  if byteOf w 0 &&& p.ibfMask = 0 then .ok (.waitIbfClear (byteOf w 0)) else .error .statusDoesNotSatisfy

/-- The `STATUS` byte that satisfies `WAIT_OBF_SET` (30_encoding.md R71, 41_polling.md R113). -/
def decodePollObf (p : Params) (w : Nat) : Except DecodeError Instr :=
  if byteOf w 0 &&& p.obfMask = 0 then .error .statusDoesNotSatisfy else .ok (.waitObfSet (byteOf w 0))

/-- `STEP`: `IDLE` 0, `R1`..`R7` 1..7, 8 unused, `W1`..`W7` 9..15 (30_encoding.md R78). -/
def decodeStep (w : Nat) : Except DecodeError Instr :=
  match w with
  | 0 => .ok .stepIdle
  | 1 => .ok .stepR1
  | 2 => .ok .stepR2
  | 3 => .ok .stepR3
  | 4 => .ok .stepR4
  | 5 => .ok .stepR5
  | 6 => .ok .stepR6
  | 7 => .ok .stepR7
  | 8 => .error .stepCodeUnused
  | 9 => .ok .stepW1
  | 10 => .ok .stepW2
  | 11 => .ok .stepW3
  | 12 => .ok .stepW4
  | 13 => .ok .stepW5
  | 14 => .ok .stepW6
  | 15 => .ok .stepW7
  | _ => .error .wordTooWide

/-- The decoder: the instruction a word stands for on the channel it arrived on. -/
def decode (p : Params) (ch : Channel) (w : Nat) : Except DecodeError Instr :=
  if 2 ^ ch.width ≤ w then .error .wordTooWide
  else match ch with
    | .req => decodeReq w
    | .cmd => decodeCmd p w
    | .portop => decodePortop p w
    | .pollIbf => decodePollIbf p w
    | .pollObf => decodePollObf p w
    | .step => decodeStep w

/-- A `REQ` word from its fields (30_encoding.md R74). -/
def reqWord (op : Nat) (a b : Byte) : Nat := op * 2 ^ 16 + a.toNat * 2 ^ 8 + b.toNat

/-- A `PORTOP` word from its fields (30_encoding.md R73). -/
def portopWord (dir : Nat) (port byte : Byte) : Nat := dir * 2 ^ 16 + port.toNat * 2 ^ 8 + byte.toNat

/-- The encoder: the word of an instruction on its channel (30_encoding.md R71 to R75, R78). -/
def encode (p : Params) : Instr → Nat
  | .readRegister o b => reqWord 0 o b
  | .writeRegister o v => reqWord 1 o v
  | .fanRpmRead a b => reqWord 2 a b
  | .tempRead i b => reqWord 3 i b
  | .fanLevelWrite a l => reqWord 4 a l
  | .reservedOp5 a b => reqWord 5 a b
  | .reservedOp6 a b => reqWord 6 a b
  | .reservedOp7 a b => reqWord 7 a b
  | .rdEc => p.k.cmdRead.toNat
  | .wrEc => p.k.cmdWrite.toNat
  | .inStatus s => portopWord 0 p.k.scPort s
  | .inData d => portopWord 0 p.k.dataPort d
  | .outCmd c => portopWord 1 p.k.scPort c
  | .outData b => portopWord 1 p.k.dataPort b
  | .waitIbfClear s => s.toNat
  | .waitObfSet s => s.toNat
  | .stepIdle => 0
  | .stepR1 => 1
  | .stepR2 => 2
  | .stepR3 => 3
  | .stepR4 => 4
  | .stepR5 => 5
  | .stepR6 => 6
  | .stepR7 => 7
  | .stepW1 => 9
  | .stepW2 => 10
  | .stepW3 => 11
  | .stepW4 => 12
  | .stepW5 => 13
  | .stepW6 => 14
  | .stepW7 => 15

/-- Whether a word has the port field of a `PORTOP` row, 9 fixed bits (spec/opcode_table.json). -/
def isPortop (w : Nat) : Bool :=
  decide (w < 2 ^ 17) && (byteOf w 1 == Config.scPort || byteOf w 1 == Config.dataPort)

/-- The channel of a table word given only its size and bits. Sizes 4, 17 and 19 name their format; in 24 bits a
`PORTOP` row (nine fixed bits) comes before a `REQ` row (three), and in 8 bits the command bytes and the `STEP` codes, all
of whose bits are fixed, come before the `STATUS` patterns, which fix one (DESIGN CHOICE, log entry 14). -/
def tableChannel (nbits w : Nat) : Channel :=
  if nbits = 4 then .step
  else if nbits = 17 then .portop
  else if nbits = 19 then .req
  else if nbits = 8 then
    if w = 0x80 ∨ w = 0x81 then .cmd
    else if w < 16 ∧ w ≠ 8 then .step
    else if (byteOf w 0).getLsbD 1 then .pollObf else .pollIbf
  else if isPortop w then .portop else .req

/-- The instruction the decoder reads from a word numbered as spec/opcode_table.json numbers it, the parameters at the
defaults the table is written for (log entry 20). -/
def decodeTableWord (nbits w : Nat) : Option Instr :=
  match decode Params.default (tableChannel nbits w) w with
  | .ok i => some i
  | .error _ => none

end Sys2Proof
end

