-- ==== Sys2Proof/Machine/State.lean ====
section
/-! DEFINITION. The state of the engine and of the agents around it (10_state.md), as plain data. -/

namespace Sys2Proof.Machine

/-! ### Engine registers with named values -/

/-- `STEP`, the program counter (10_state.md R13). Code 8 is never taken (30_encoding.md R89) and has no name. -/
inductive Step where
  | idle
  | r1
  | r2
  | r3
  | r4
  | r5
  | r6
  | r7
  | w1
  | w2
  | w3
  | w4
  | w5
  | w6
  | w7
  deriving DecidableEq, Repr

/-- `FE`, the operation in progress (10_state.md R15). Code 7 is never taken (30_encoding.md R89). -/
inductive Fe where
  | none
  | rawRd
  | rawWr
  | rpmLsb
  | rpmMsb
  | temp
  | level
  deriving DecidableEq, Repr

/-- `RES_KIND` (30_encoding.md R80). -/
inductive ResKind where
  | ok
  | ecTimeout
  | portAccessError
  | invalidArgument
  | sensorUnavailable
  deriving DecidableEq, Repr

/-- `RES_STAGE` (30_encoding.md R77). -/
inductive Stage where
  | none
  | ibfBeforeReadCmd
  | ibfBeforeOffset
  | obfAfterOffset
  | ibfBeforeWriteCmd
  | ibfAfterWriteCmd
  | ibfAfterOffset
  | ibfAfterData
  deriving DecidableEq, Repr

/-! ### The EC -/

/-- EC register space: offset and byte, offsets rising, no entry equal to an unlisted byte (20_memory.md R43, R61). -/
abbrev Memory := List Host.Cell

/-- `pend` (20_memory.md R61). -/
inductive Pending where
  | cmd (b : Byte)
  | data (b : Byte)
  deriving DecidableEq, Repr

/-- `phase` (20_memory.md R61). -/
inductive Phase where
  | idle
  | rdAddr
  | wrAddr
  | wrData
  deriving DecidableEq, Repr

/-- The latency function `lat` (20_memory.md R61) as data: `lat k` is entry `k - 1` of the table, past its end `rest`;
`none` is infinity (log entry 19). -/
structure Latency where
  table : List (Option Nat)
  rest : Option Nat
  deriving DecidableEq, Repr

/-- The reference EC responder (20_memory.md R61). `delay = none` is infinity. -/
structure RefEc where
  regs : Memory
  ibf : Bool
  obf : Bool
  dout : Byte
  pend : Option Pending
  phase : Phase
  addr : Byte
  delay : Option Nat
  nwrites : Nat
  violation : Bool
  lat : Latency
  stuck0 : Bool
  deriving DecidableEq, Repr

/-- Which EC sits at the ports: the oracle (20_memory.md R47) or the reference EC (R60). -/
inductive EcKind where
  | oracle
  | reference
  deriving DecidableEq, Repr

/-- The timing model: deterministic (60_exceptions.md R201) or abstract (R200), with the advances already decided. -/
inductive ClockModel where
  | deterministic
  | abstract (advances : List Nat)
  deriving DecidableEq, Repr

/-- The EC, the access mechanism and the clock model. `answers`, `plan` and the advances are what the environment has
already decided; past their ends the free values of Config decide, applied to `draws` (log entries 4 to 7). -/
structure Environment where
  ecKind : EcKind
  answers : List Nat
  ec : RefEc
  plan : List MechOutcome
  /-- past the end of `plan`: true, every operation passes; false, the outcome is free -/
  reliable : Bool
  clock : ClockModel
  draws : Nat
  deriving DecidableEq, Repr

/-! ### The host's side -/

/-- The control loop's place in its cycle (45_consumers.md R163, R167). -/
inductive LoopPhase where
  | waiting
  | reading
  | writing (level : Byte)
  | restoring
  | stopped
  deriving DecidableEq, Repr

/-- The fan curve: (temperature threshold, level) pairs (45_consumers.md R161). -/
abbrev Curve := List (Int × Byte)

/-- What the loop is configured with (45_consumers.md R160). -/
structure LoopConfig where
  sensor : Byte
  intervalSeconds : Nat
  curve : Curve
  deriving DecidableEq, Repr

/-- The control loop (45_consumers.md R160, R164, R165). `strobes`: the request strobed now is the loop's own. -/
structure ControlLoop where
  config : LoopConfig
  lastLevel : Option Byte
  stop : Bool
  phase : LoopPhase
  strobes : Bool
  deriving DecidableEq, Repr

/-- The word channels another port master can use: the PAL's primitives and the polls, never `REQ` or `STEP`, which are
the engine's own (10_state.md R14, R16). -/
inductive CallChannel where
  | cmd
  | portop
  | pollIbf
  | pollObf
  deriving DecidableEq, Repr

/-- The channel of a call's word. -/
def CallChannel.channel : CallChannel → Channel
  | .cmd => .cmd
  | .portop => .portop
  | .pollIbf => .pollIbf
  | .pollObf => .pollObf

/-- One port operation or poll iteration that another port master asks for (log entries 15, 23). -/
structure Call where
  channel : CallChannel
  word : Nat
  deriving DecidableEq, Repr

/-- What the environment does between two steps (45_consumers.md R170; log entry 4). -/
inductive EnvEvent where
  | request (req : BitVec 19) (start : Bool)
  | writeTimeout (ticks : BitVec 32)
  | palReady (ready : Bool)
  | reset (reached : Bool)
  | drive (c : Call)
  | loopStart (config : LoopConfig) (acquired : Bool)
  | loopTimer
  | loopStop
  deriving DecidableEq, Repr

/-- How a poll iteration ends (41_polling.md R110); `portError` is R117, `waiting` an answer that has not come (R240 of
70_reset_and_hazards.md). -/
inductive PollResult where
  | satisfied
  | again
  | timedOut
  | portError
  | waiting
  deriving DecidableEq, Repr

/-- How a PAL primitive ends (40_port_access.md R101, R102); `pending` is an answer that has not come. -/
inductive PortResult where
  | ok (b : Byte)
  | error
  | pending
  deriving DecidableEq, Repr

/-- What the last call of another port master answered it (log entry 15). -/
inductive PrimResult where
  | none
  | port (r : PortResult)
  | poll (r : PollResult)
  deriving DecidableEq, Repr

/-! ### The state -/

structure State where
  -- data registers (10_state.md R10)
  offset : Byte
  wdata : Byte
  rdata : Byte
  lsb : Byte
  -- sequencer and front end (R13, R15)
  step : Step
  fe : Fe
  -- host-visible registers (R17 to R20)
  busy : Bool
  done : Bool
  res : BitVec 22
  timeout : BitVec 32
  -- hidden state (R24; 40_port_access.md R105)
  deadline : Nat
  outstanding : Option (Master × PortRequest)
  -- inputs (R16, R21)
  req : BitVec 19
  start : Bool
  palReady : Bool
  -- the clock's state (R25)
  now : Nat
  -- the agents around the engine (R26, R27; 20_memory.md R61; 45_consumers.md)
  env : Environment
  loop : Option ControlLoop
  inputs : List (List EnvEvent)
  -- the model's own: parameters, history, the other port master's calls
  cfg : Params
  trace : List PortEvent
  calls : List Call
  primResult : PrimResult
  deriving DecidableEq, Repr

/-- Why the machine stops. -/
inductive Fault where
  /-- Raised by STEP_R7 and STEP_W7 when the transaction completes and `FE` names no operation of that transaction. The
  spec has no completion rule there and no run reaches it (10_state.md R15). Safe. -/
  | noCompletionRule
  deriving DecidableEq, Repr

/-- Why a word has no meaning. -/
inductive Refusal where
  /-- An instruction without a meaning yet. Raised by exec. Safe. -/
  | notModelled (mnemonic : String)
  /-- Raised by step for a word of another port master that is no row of the opcode table. Safe. -/
  | undecodable (e : DecodeError)
  deriving DecidableEq, Repr

/-- `TIMEOUT_RESET` = ceil(TIMEOUT_MS * TICK_HZ / 1000) (00_scope.md R5, 60_exceptions.md R203). -/
def timeoutReset (p : Params) : BitVec 32 :=
  BitVec.ofNat 32 ((p.k.timeoutMs * p.tickHz + 999) / 1000)

/-- *Ideal* latency: 0 for every write (20_memory.md R64). -/
def Latency.ideal : Latency := { table := [], rest := some 0 }

/-- The start state of the reference EC (20_memory.md R61), registers all unlisted. -/
def RefEc.start : RefEc where
  regs := []
  ibf := false
  obf := false
  dout := 0
  pend := none
  phase := .idle
  addr := 0
  delay := some 0
  nwrites := 0
  violation := false
  lat := Latency.ideal
  stuck0 := false

/-- The machine right after reset (10_state.md R28, 70_reset_and_hazards.md R220), in an environment that has decided
nothing: oracle EC, free mechanism, abstract clock (values the spec leaves open: log entries 9 to 11). -/
def State.reset : State where
  offset := 0
  wdata := 0
  rdata := 0
  lsb := 0
  step := .idle
  fe := .none
  busy := false
  done := false
  res := 0
  timeout := timeoutReset Params.default
  deadline := 0
  outstanding := none
  req := 0
  start := false
  palReady := true
  now := 0
  env := { ecKind := .oracle, answers := [], ec := RefEc.start, plan := [], reliable := false, clock := .abstract [],
           draws := 0 }
  loop := none
  inputs := []
  cfg := Params.default
  trace := []
  calls := []
  primResult := .none

end Sys2Proof.Machine
end

