-- ==== Sys2Proof/Machine/Flags.lean ====
section
/-! DEFINITION. The two status flags, derived from the byte of a status read and never stored (10_state.md R23). -/

namespace Sys2Proof.Machine

/-- A flag of a status byte: `(s & mask) != 0` (10_state.md R23, 41_polling.md R110). -/
def flagOf (s mask : Byte) : Bool := s &&& mask != 0

/-- OBF: "the EC has data ready for the caller to consume" (30_encoding.md R71). -/
def obfFlag (p : Params) (s : Byte) : Bool := flagOf s p.obfMask

/-- IBF: "the EC has not yet consumed data the caller placed in the data port" (30_encoding.md R71). -/
def ibfFlag (p : Params) (s : Byte) : Bool := flagOf s p.ibfMask

/-- A mask or nothing, as the reference EC builds its status byte (20_memory.md R62). -/
def maskIf (b : Bool) (mask : Byte) : Byte := if b then mask else 0

end Sys2Proof.Machine
end

