-- ==== Sys2Proof/Machine/Operands.lean ====
section
/-! DEFINITION. Codes, fields and operand assembly (30_encoding.md R74 to R85). -/

namespace Sys2Proof.Machine

/-- `STEP` encoding (30_encoding.md R78). -/
def stepCode : Step → BitVec 4
  | .idle => 0
  | .r1 => 1
  | .r2 => 2
  | .r3 => 3
  | .r4 => 4
  | .r5 => 5
  | .r6 => 6
  | .r7 => 7
  | .w1 => 9
  | .w2 => 10
  | .w3 => 11
  | .w4 => 12
  | .w5 => 13
  | .w6 => 14
  | .w7 => 15

/-- The step a `STEP` code names; 8 names none (30_encoding.md R78, R89). -/
def stepOfCode : Nat → Option Step
  | 0 => some .idle
  | 1 => some .r1
  | 2 => some .r2
  | 3 => some .r3
  | 4 => some .r4
  | 5 => some .r5
  | 6 => some .r6
  | 7 => some .r7
  | 9 => some .w1
  | 10 => some .w2
  | 11 => some .w3
  | 12 => some .w4
  | 13 => some .w5
  | 14 => some .w6
  | 15 => some .w7
  | _ => none

/-- `FE` encoding (30_encoding.md R79). -/
def feCode : Fe → BitVec 3
  | .none => 0
  | .rawRd => 1
  | .rawWr => 2
  | .rpmLsb => 3
  | .rpmMsb => 4
  | .temp => 5
  | .level => 6

/-- `RES_KIND` codes (30_encoding.md R80). -/
def kindCode : ResKind → BitVec 3
  | .ok => 0
  | .ecTimeout => 1
  | .portAccessError => 2
  | .invalidArgument => 3
  | .sensorUnavailable => 4

/-- The kind a `RES_KIND` code names; 5 to 7 are never produced (30_encoding.md R80). -/
def kindOfCode (c : BitVec 3) : Option ResKind :=
  match c.toNat with
  | 0 => some .ok
  | 1 => some .ecTimeout
  | 2 => some .portAccessError
  | 3 => some .invalidArgument
  | 4 => some .sensorUnavailable
  | _ => none

/-- Stage tag codes (30_encoding.md R77). -/
def stageCode : Stage → BitVec 3
  | .none => 0
  | .ibfBeforeReadCmd => 1
  | .ibfBeforeOffset => 2
  | .obfAfterOffset => 3
  | .ibfBeforeWriteCmd => 4
  | .ibfAfterWriteCmd => 5
  | .ibfAfterOffset => 6
  | .ibfAfterData => 7

/-- The stage tag strings (30_encoding.md R77, 60_exceptions.md R182). -/
def stageTag : Stage → String
  | .none => ""
  | .ibfBeforeReadCmd => "ibf-before-read-cmd"
  | .ibfBeforeOffset => "ibf-before-offset"
  | .obfAfterOffset => "obf-after-offset"
  | .ibfBeforeWriteCmd => "ibf-before-write-cmd"
  | .ibfAfterWriteCmd => "ibf-after-write-cmd"
  | .ibfAfterOffset => "ibf-after-offset"
  | .ibfAfterData => "ibf-after-data"

/-- `RES` = {`RES_KIND` [21:19], `RES_STAGE` [18:16], `RES_DATA` [15:0]} (30_encoding.md R76). -/
def packRes (kind : ResKind) (stage : Stage) (data : Half) : BitVec 22 :=
  kindCode kind ++ stageCode stage ++ data

/-- `RES_KIND` of a result word (30_encoding.md R76). -/
def resKind (r : BitVec 22) : BitVec 3 := r.extractLsb' 19 3

/-- `RES_STAGE` of a result word (30_encoding.md R76). -/
def resStage (r : BitVec 22) : BitVec 3 := r.extractLsb' 16 3

/-- `RES_DATA` of a result word (30_encoding.md R76). -/
def resData (r : BitVec 22) : Half := r.extractLsb' 0 16

/-- `PORTOP` word of a port operation that was answered without error (30_encoding.md R73). -/
def portEventWord (k : Constants) (e : PortEvent) : Option Nat :=
  match e.dir, e.byte with
  | .read, some b => some (portopWord 0 (e.port.address k) b)
  | .write, some b => some (portopWord 1 (e.port.address k) b)
  | _, none => none

/-- `v[7:0]` of a value of any width (30_encoding.md R85). -/
def lowByte (v : Nat) : Byte := BitVec.ofNat 8 v

/-- `zext_16` (00_scope.md section 5). -/
def zext16 (b : Byte) : Half := b.zeroExtend 16

/-- `sext_16` (00_scope.md section 5). -/
def sext16 (b : Byte) : Half := b.signExtend 16

/-- The EC offset of temperature sensor `i` (30_encoding.md R81). -/
def tempOffset (k : Constants) (i : Byte) : Byte := k.tempBase + i

/-- `rpm = msb * 256 + lsb`, with `RPM_ABSENT` (0xFFFF) replaced by 0 (30_encoding.md R82). -/
def rpmValue (k : Constants) (msb lsb : Byte) : Half :=
  let rpm := BitVec.ofNat 16 (msb.toNat * 256 + lsb.toNat)
  if rpm = k.rpmAbsent then 0 else rpm

/-- `LegalLevel` (30_encoding.md R84, 44_derived_operations.md R146). -/
def legalLevel (k : Constants) (b : Byte) : Bool :=
  decide (b ≤ k.levelMax) || b == k.levelFull || b == k.levelAuto

/-- The sensor index check `A <= SENSOR_MAX`, unsigned (44_derived_operations.md R144). -/
def legalSensor (k : Constants) (i : Byte) : Bool := decide (i ≤ k.sensorMax)

end Sys2Proof.Machine
end

