-- ==== Sys2Proof/Machine/Ops.lean ====
section
/-! DEFINITION. The shared operations: memory of the reference EC, the EC's answers, the clock, the port operation,
the poll iteration, accepting and completing. -/

namespace Sys2Proof.Machine

/-! ### EC register space of the reference EC (20_memory.md R43, R61) -/

/-- What an unlisted offset reads as (DESIGN CHOICE, log entry 18). -/
def Memory.unlisted (_a : Nat) : Byte := 0

/-- The byte at an offset. -/
def Memory.read : Memory → Nat → Byte
  | [], a => Memory.unlisted a
  | (k, v) :: rest, a => if k = a then v else Memory.read rest a

/-- Storing a byte keeps the list in its one canonical form. -/
def Memory.write : Memory → Nat → Byte → Memory
  | [], a, v => if v = Memory.unlisted a then [] else [(a, v)]
  | (k, w) :: rest, a, v =>
    if a < k then if v = Memory.unlisted a then (k, w) :: rest else (a, v) :: (k, w) :: rest
    else if a = k then if v = Memory.unlisted a then rest else (a, v) :: rest
    else (k, w) :: Memory.write rest a v

/-- Offsets rise from `lo` on and stay below 256, and no entry equals what an unlisted offset reads as. -/
def Memory.wfFrom (lo : Nat) : Memory → Bool
  | [] => true
  | (k, v) :: rest => decide (lo ≤ k) && decide (k < 256) && v != Memory.unlisted k && Memory.wfFrom (k + 1) rest

/-- The canonical form of EC register space. -/
def Memory.wf (m : Memory) : Bool := Memory.wfFrom 0 m

/-! ### The reference EC (20_memory.md R62, R63) -/

/-- `lat(k)` for `k >= 1` (20_memory.md R61). -/
def Latency.at (l : Latency) (k : Nat) : Option Nat :=
  match l.table[k - 1]? with
  | some d => d
  | none => l.rest

/-- *Slow(n)* (20_memory.md R64). -/
def Latency.slow (n : Nat) : Latency := { table := [], rest := some n }

/-- *Dead(k)* (20_memory.md R64). R64 gives no `lat(j)` for `j > k`; it is the argument `later` (log entry 19). -/
def Latency.dead (k : Nat) (later : Option Nat) : Latency :=
  { table := List.replicate (k - 1) (some 0) ++ [none], rest := later }

/-- What a consumed byte does (20_memory.md R63, before `pend` and `ibf` are cleared). -/
def RefEc.take (k : Constants) (e : RefEc) : Option Pending → RefEc
  | none => e
  | some (.cmd c) =>
    if c = k.cmdRead then { e with phase := .rdAddr }
    else if c = k.cmdWrite then { e with phase := .wrAddr }
    else { e with phase := .idle }
  | some (.data b) =>
    match e.phase with
    | .rdAddr => { e with dout := Memory.read e.regs b.toNat, obf := true, phase := .idle }
    | .wrAddr => { e with addr := b, phase := .wrData }
    | .wrData => { e with regs := Memory.write e.regs e.addr.toNat b, phase := .idle }
    | .idle => e

/-- `Consume()` (20_memory.md R63). -/
def RefEc.consume (k : Constants) (e : RefEc) : RefEc := { e.take k e.pend with pend := none, ibf := false }

/-- A host write (20_memory.md R62). -/
def RefEc.hostWrite (e : RefEc) (p : Pending) : RefEc :=
  { e with violation := e.violation || e.ibf, nwrites := e.nwrites + 1, pend := some p, ibf := true,
           delay := e.lat.at (e.nwrites + 1) }

/-- `IoWrite` at the reference EC (20_memory.md R62). -/
def RefEc.ioWrite (e : RefEc) (p : Port) (b : Byte) : RefEc :=
  match p with
  | .sc => e.hostWrite (.cmd b)
  | .data => e.hostWrite (.data b)

/-- What a status read does to the reference EC before it answers (20_memory.md R62). -/
def RefEc.progress (k : Constants) (e : RefEc) : RefEc :=
  if e.ibf then
    match e.delay with
    | some 0 => e.consume k
    | some (n + 1) => { e with delay := some n }
    | none => e
  else e

/-- The status byte of the reference EC (20_memory.md R62). -/
def RefEc.status (cfg : Params) (e : RefEc) : Byte :=
  maskIf e.obf cfg.obfMask ||| maskIf (e.ibf || e.stuck0) cfg.ibfMask

/-- `IoRead` at the reference EC: the answered byte and the EC after (20_memory.md R62). -/
def RefEc.ioRead (cfg : Params) (e : RefEc) (p : Port) : Byte × RefEc :=
  match p with
  | .data => (e.dout, { e with obf := false })
  | .sc => if e.stuck0 then (e.status cfg, e) else ((e.progress cfg.k).status cfg, e.progress cfg.k)

/-! ### The clock (60_exceptions.md R200, R201) -/

/-- `NOW` moves by `ticks` in the deterministic model and by what the environment decides in the abstract one. -/
def State.elapse (ticks : Nat) (s : State) : State :=
  match s.env.clock with
  | .deterministic => { s with now := s.now + ticks }
  | .abstract (n :: rest) => { s with now := s.now + n, env := { s.env with clock := .abstract rest } }
  | .abstract [] =>
    { s with now := s.now + Config.clockAdvance s.trace s.env.draws, env := { s.env with draws := s.env.draws + 1 } }

/-! ### The port bus (40_port_access.md R105) -/

/-- What the access mechanism does with a request: the environment's plan, past its end every operation passes
(`reliable`) or a free value (10_state.md R29). -/
def State.mechanism (r : PortRequest) (s : State) : MechOutcome :=
  match s.env.plan with
  | o :: _ => o
  | [] => if s.env.reliable then .pass else Config.mechOutcome s.trace s.env.draws r

/-- The plan with its first entry used, and the counter of the free values moved on. -/
def State.usePlan (s : State) : State :=
  { s with env := { s.env with plan := s.env.plan.tail, draws := s.env.draws + 1 } }

/-- The bus word the EC answers to a read, and the environment after. The oracle answers any word of the bus's width
(20_memory.md R47, 40_port_access.md R105). -/
def State.ecRead (p : Port) (s : State) : Nat × Environment :=
  match s.env.ecKind with
  | .reference =>
    let (b, ec) := s.env.ec.ioRead s.cfg p
    (s.cfg.onBus b.toNat, { s.env with ec := ec })
  | .oracle =>
    match s.env.answers with
    | w :: rest => (s.cfg.onBus w, { s.env with answers := rest })
    | [] => (s.cfg.onBus (Config.busWord s.trace s.env.draws p), { s.env with draws := s.env.draws + 1 })

/-- The environment after the EC took a written byte. The oracle absorbs it (20_memory.md R47). -/
def State.ecWrite (p : Port) (b : Byte) (s : State) : Environment :=
  match s.env.ecKind with
  | .reference => { s.env with ec := s.env.ec.ioWrite p b }
  | .oracle => s.env

/-- What a request does at the EC: the answered word (0 for a write) and the environment after. -/
def State.reachEc (r : PortRequest) (s : State) : Nat × Environment :=
  match r.dir with
  | .read => s.ecRead r.port
  | .write => (0, s.ecWrite r.port (lowByte r.wdata))

/-- The byte a trace records for an answered operation (30_encoding.md R73). -/
def eventByte (r : PortRequest) (answer : Nat) : Byte :=
  match r.dir with
  | .read => lowByte answer
  | .write => lowByte r.wdata

/-- The answer has arrived: time has passed, the operation is in the trace, nothing is outstanding. -/
def State.answered (m : Master) (r : PortRequest) (byte : Option Byte) (s : State) : State :=
  let t := s.elapse s.cfg.portOpTicks
  { t with outstanding := none, trace := { master := m, dir := r.dir, port := r.port, byte := byte } :: t.trace }

/-- The bus carries another request that is not answered yet; one port operation is indivisible (20_memory.md R51). -/
def State.busHeld (m : Master) (r : PortRequest) (s : State) : Bool :=
  match s.outstanding with
  | none => false
  | some q => q != (m, r)

/-- The PAL makes no request: nothing is outstanding and the access mechanism is not available (40_port_access.md R101,
R102). -/
def State.palRefuses (s : State) : Bool := s.outstanding.isNone && !s.palReady

/-- One port operation (40_port_access.md R101, R102, R105; 60_exceptions.md R188 item 3, R193). It waits while the bus
carries another; then `PAL_READY`, then the bus. A failed operation that reached the EC has its effect there. With no
answer its master waits, the request outstanding (log entry 8). -/
def State.portOp (m : Master) (r : PortRequest) (s : State) : PortResult × State :=
  if s.busHeld m r then (.pending, s)
  else if s.palRefuses then (.error, s)
  else
    match s.mechanism r with
    | .hang => (.pending, { s.usePlan.elapse 0 with outstanding := some (m, r) })
    | .fail true => (.error, ({ s with env := (s.reachEc r).2 } : State).usePlan.answered m r none)
    | .fail false => (.error, s.usePlan.answered m r none)
    | .pass =>
      let (w, env) := s.reachEc r
      let b := eventByte r w
      (.ok b, ({ s with env := env } : State).usePlan.answered m r (some b))

/-- `IoRead(p)`: "the low 8 bits of whatever the underlying mechanism returns" (40_port_access.md R101). -/
def State.ioRead (m : Master) (p : Port) (s : State) : PortResult × State :=
  s.portOp m (readRequest s.cfg p)

/-- `IoWrite(p, v)`, `v` of any width: drives `zext(v[7:0])` (40_port_access.md R102, 30_encoding.md R85). -/
def State.ioWrite (m : Master) (p : Port) (v : Nat) (s : State) : PortResult × State :=
  s.portOp m (writeRequest s.cfg p (lowByte v))

/-! ### Ending an operation (44_derived_operations.md R150, 60_exceptions.md R190) -/

/-- `Complete(kind, stage, data)`: the one way an operation ends. There is no return from it (60_exceptions.md R194). -/
def State.complete (kind : ResKind) (stage : Stage) (data : Half) (s : State) : State :=
  { s with res := packRes kind stage data, step := .idle, fe := .none, busy := false, done := true }

/-- `Fail(K)`: `Complete(kind, stage, 0)` (60_exceptions.md R190). -/
def State.failWith (kind : ResKind) (stage : Stage) (s : State) : State := s.complete kind stage 0

/-! ### Moving the sequencer -/

/-- `STEP <- target` (00_scope.md section 5). -/
def State.goto (target : Step) (s : State) : State := { s with step := target }

/-- `STEP <- target` with poll entry, `DEADLINE <- NOW + TIMEOUT` (41_polling.md R111). -/
def State.enterPoll (target : Step) (s : State) : State :=
  { s with step := target, deadline := s.now + s.timeout.toNat }

/-! ### The poll iteration (41_polling.md R110) -/

/-- `PollIteration(mask, want)`: one status read, then the flag, then the window. -/
def State.pollIteration (m : Master) (mask : Byte) (want : Bool) (s : State) : PollResult × State :=
  match s.ioRead m .sc with
  | (.ok b, t) =>
    if flagOf b mask = want then (.satisfied, t)
    else if t.deadline ≤ t.now then (.timedOut, t)
    else (.again, t)
  | (.error, t) => (.portError, t)
  | (.pending, t) => (.waiting, t)

/-- `WAIT_IBF_CLEAR`, one iteration (41_polling.md R112). -/
def State.waitIbfClear (m : Master) (s : State) : PollResult × State := s.pollIteration m s.cfg.ibfMask false

/-- `WAIT_OBF_SET`, one iteration (41_polling.md R113). -/
def State.waitObfSet (m : Master) (s : State) : PollResult × State := s.pollIteration m s.cfg.obfMask true

/-- What a poll step does with its iteration: `next` when satisfied, stay, or end the operation (R121 and its like). -/
def pollStep (stage : Stage) (next : State → State) : PollResult × State → State
  | (.satisfied, t) => next t
  | (.again, t) => t
  | (.waiting, t) => t
  | (.timedOut, t) => t.failWith .ecTimeout stage
  | (.portError, t) => t.failWith .portAccessError .none

/-- What a step with one plain port operation does with its answer (R122 and its like). -/
def portStep (next : Byte → State → State) : PortResult × State → State
  | (.ok b, t) => next b t
  | (.pending, t) => t
  | (.error, t) => t.failWith .portAccessError .none

/-! ### Accepting a request (44_derived_operations.md R140) -/

/-- `Begin(s)`. -/
def State.beginAt (first : Step) (s : State) : State :=
  { s with step := first, busy := true, done := false, deadline := s.now + s.timeout.toNat }

/-- `Reject`. -/
def State.reject (s : State) : State := { s with res := packRes .invalidArgument .none 0, done := true }

/-- The accept step exists only when the engine is idle; otherwise the strobe is ignored (10_state.md R17, R22). -/
def State.acceptWith (f : State → State) (s : State) : State :=
  if s.step = .idle ∧ s.busy = false then f s else s

/-- Accepting a read of offset `o` for front-end operation `fe`. -/
def State.beginRead (fe : Fe) (o : Byte) (s : State) : State :=
  ({ s with fe := fe, offset := o } : State).beginAt .r1

/-- Accepting a write of `v` to offset `o` for front-end operation `fe`. -/
def State.beginWrite (fe : Fe) (o v : Byte) (s : State) : State :=
  ({ s with fe := fe, offset := o, wdata := v } : State).beginAt .w1

/-- `Accept` for `OP` 000 (44_derived_operations.md R140, R141). -/
def acceptRead (o : Byte) (s : State) : State := s.beginRead .rawRd o

/-- `Accept` for `OP` 001 (44_derived_operations.md R140, R142). -/
def acceptWrite (o v : Byte) (s : State) : State := s.beginWrite .rawWr o v

/-- `Accept` for `OP` 010 (44_derived_operations.md R140, R143). -/
def acceptRpm (s : State) : State :=
  if s.cfg.hasFrontEnd then s.beginRead .rpmLsb s.cfg.k.regRpmLsb else s.reject

/-- `Accept` for `OP` 011 (44_derived_operations.md R140, R144, R145). -/
def acceptTemp (i : Byte) (s : State) : State :=
  if s.cfg.hasFrontEnd && legalSensor s.cfg.k i then s.beginRead .temp (tempOffset s.cfg.k i) else s.reject

/-- `Accept` for `OP` 100 (44_derived_operations.md R140, R146, R147). -/
def acceptLevel (l : Byte) (s : State) : State :=
  if s.cfg.hasFrontEnd && legalLevel s.cfg.k l then s.beginWrite .level s.cfg.k.regFanStatus l else s.reject

/-- `Accept` of a whole `REQ` word (44_derived_operations.md R140). -/
def acceptWord (req : BitVec 19) (s : State) : State :=
  let a := byteOf req.toNat 1
  let b := byteOf req.toNat 0
  match req.toNat / 2 ^ 16 with
  | 0 => acceptRead a s
  | 1 => acceptWrite a b s
  | 2 => acceptRpm s
  | 3 => acceptTemp a s
  | 4 => acceptLevel b s
  | _ => s.reject

/-! ### The front end's completion rules (44_derived_operations.md R141 to R147) -/

/-- At the end of `R7`: what the operation in progress does with `RDATA`; none if `FE` names no reading operation. -/
def readCompletion : Fe → Option (State → State)
  | .rawRd => some fun s => s.complete .ok .none (zext16 s.rdata)
  | .rpmLsb => some fun s =>
      ({ s with lsb := s.rdata, offset := s.cfg.k.regRpmMsb, fe := .rpmMsb } : State).enterPoll .r1
  | .rpmMsb => some fun s => s.complete .ok .none (rpmValue s.cfg.k s.rdata s.lsb)
  | .temp => some fun s =>
      if s.rdata = s.cfg.k.tempAbsent then s.complete .sensorUnavailable .none 0
      else s.complete .ok .none (sext16 s.rdata)
  | .none => none
  | .rawWr => none
  | .level => none

/-- At `W7` satisfied: the operation in progress ends; none if `FE` names no writing operation. -/
def writeCompletion : Fe → Option (State → State)
  | .rawWr => some fun s => s.complete .ok .none 0
  | .level => some fun s => s.complete .ok .none 0
  | .none => none
  | .rawRd => none
  | .rpmLsb => none
  | .rpmMsb => none
  | .temp => none

/-! ### Calls of another port master (log entry 15) -/

/-- Recording what a PAL primitive answered its caller (40_port_access.md R101, R102). -/
def recordPort : PortResult × State → State
  | (r, t) => { t with primResult := .port r }

/-- Recording what a poll iteration answered its caller (41_polling.md R110). -/
def recordPoll : PollResult × State → State
  | (r, t) => { t with primResult := .poll r }

end Sys2Proof.Machine
end

