-- ==== Sys2Proof/Machine/HostRequests.lean ====
section
/-! DEFINITION. The meanings of the `REQ` rows: the accept step of each host operation (44_derived_operations.md R140).
A request while the engine is busy changes nothing (10_state.md R17). -/

namespace Sys2Proof.Machine

/-- `READ_REGISTER o`; `B` is ignored (44_derived_operations.md R141, 30_encoding.md R88). -/
def execReadRegister (o _b : Byte) (s : State) : Host.Outcome State Fault Refusal :=
  .next (s.acceptWith (acceptRead o))

/-- `WRITE_REGISTER o, v` (44_derived_operations.md R142). -/
def execWriteRegister (o v : Byte) (s : State) : Host.Outcome State Fault Refusal :=
  .next (s.acceptWith (acceptWrite o v))

/-- `FAN_RPM_READ`; `A` and `B` are ignored (44_derived_operations.md R143). -/
def execFanRpmRead (_a _b : Byte) (s : State) : Host.Outcome State Fault Refusal :=
  .next (s.acceptWith acceptRpm)

/-- `TEMP_READ i`; `B` is ignored (44_derived_operations.md R144, R145). -/
def execTempRead (i _b : Byte) (s : State) : Host.Outcome State Fault Refusal :=
  .next (s.acceptWith (acceptTemp i))

/-- `FAN_LEVEL_WRITE l`; `A` is ignored (44_derived_operations.md R146, R147). -/
def execFanLevelWrite (_a l : Byte) (s : State) : Host.Outcome State Fault Refusal :=
  .next (s.acceptWith (acceptLevel l))

/-- Reserved `OP` 101: `InvalidArgument`, no port operation (30_encoding.md R87). -/
def execReservedOp5 (_a _b : Byte) (s : State) : Host.Outcome State Fault Refusal :=
  .next (s.acceptWith State.reject)

/-- Reserved `OP` 110 (30_encoding.md R87). -/
def execReservedOp6 (_a _b : Byte) (s : State) : Host.Outcome State Fault Refusal :=
  .next (s.acceptWith State.reject)

/-- Reserved `OP` 111 (30_encoding.md R87). -/
def execReservedOp7 (_a _b : Byte) (s : State) : Host.Outcome State Fault Refusal :=
  .next (s.acceptWith State.reject)

end Sys2Proof.Machine
end

