-- ==== Sys2Proof/Machine/Polls.lean ====
section
/-! DEFINITION. The meanings of the `STATUS` rows: one iteration of a poll by another port master, its answer
recorded for it (41_polling.md R110, R112, R113; log entry 15). The row's byte is a pattern that satisfies the poll, no operand. -/

namespace Sys2Proof.Machine

/-- `WAIT_IBF_CLEAR`, one iteration. -/
def execWaitIbfClear (_s : Byte) (s : State) : Host.Outcome State Fault Refusal :=
  .next (recordPoll (s.waitIbfClear .other))

/-- `WAIT_OBF_SET`, one iteration. -/
def execWaitObfSet (_s : Byte) (s : State) : Host.Outcome State Fault Refusal :=
  .next (recordPoll (s.waitObfSet .other))

end Sys2Proof.Machine
end

