-- ==== Sys2Proof/Machine/PortOps.lean ====
section
/-! DEFINITION. The meanings of the `PORTOP` and `CMD` rows: one PAL primitive of another port master, its answer
recorded for it (40_port_access.md R101, R102; log entry 15). They change no engine register (R100). -/

namespace Sys2Proof.Machine

/-- `IN_STATUS`: `IN 0x66`. The word's byte is where the answer is recorded, no operand (30_encoding.md R73). -/
def execInStatus (_s : Byte) (s : State) : Host.Outcome State Fault Refusal :=
  .next (recordPort (s.ioRead .other .sc))

/-- `IN_DATA`: `IN 0x62`. The word's byte is where the answer is recorded, no operand (30_encoding.md R73). -/
def execInData (_d : Byte) (s : State) : Host.Outcome State Fault Refusal :=
  .next (recordPort (s.ioRead .other .data))

/-- `OUT_CMD`: `OUT 0x66, c`. -/
def execOutCmd (c : Byte) (s : State) : Host.Outcome State Fault Refusal :=
  .next (recordPort (s.ioWrite .other .sc c.toNat))

/-- `OUT_DATA`: `OUT 0x62, b`. -/
def execOutData (b : Byte) (s : State) : Host.Outcome State Fault Refusal :=
  .next (recordPort (s.ioWrite .other .data b.toNat))

/-- `RD_EC`: the read-command code sent to the command port (30_encoding.md R72, 42_read_transaction.md R122). -/
def execRdEc (s : State) : Host.Outcome State Fault Refusal :=
  .next (recordPort (s.ioWrite .other .sc s.cfg.k.cmdRead.toNat))

/-- `WR_EC`: the write-command code sent to the command port (30_encoding.md R72, 43_write_transaction.md R132). -/
def execWrEc (s : State) : Host.Outcome State Fault Refusal :=
  .next (recordPort (s.ioWrite .other .sc s.cfg.k.cmdWrite.toNat))

end Sys2Proof.Machine
end

