-- ==== Sys2Proof/Machine/ReadSteps.lean ====
section
/-! DEFINITION. The meanings of `STEP_IDLE` and of the seven steps of the read transaction (42_read_transaction.md). -/

namespace Sys2Proof.Machine

/-- `IDLE`: the accept step when a request is strobed, else nothing changes (10_state.md R22). -/
def execStepIdle (s : State) : Host.Outcome State Fault Refusal :=
  .next (if s.start then s.acceptWith (acceptWord s.req) else s)

/-- Step `R1` (42_read_transaction.md R121). -/
def execStepR1 (s : State) : Host.Outcome State Fault Refusal :=
  .next (pollStep .ibfBeforeReadCmd (State.goto .r2) (s.waitIbfClear .engine))

/-- Step `R2` (42_read_transaction.md R122). -/
def execStepR2 (s : State) : Host.Outcome State Fault Refusal :=
  .next (portStep (fun _ => State.enterPoll .r3) (s.ioWrite .engine .sc s.cfg.k.cmdRead.toNat))

/-- Step `R3` (42_read_transaction.md R123). -/
def execStepR3 (s : State) : Host.Outcome State Fault Refusal :=
  .next (pollStep .ibfBeforeOffset (State.goto .r4) (s.waitIbfClear .engine))

/-- Step `R4` (42_read_transaction.md R124). -/
def execStepR4 (s : State) : Host.Outcome State Fault Refusal :=
  .next (portStep (fun _ => State.enterPoll .r5) (s.ioWrite .engine .data s.offset.toNat))

/-- Step `R5` (42_read_transaction.md R125). -/
def execStepR5 (s : State) : Host.Outcome State Fault Refusal :=
  .next (pollStep .obfAfterOffset (State.goto .r6) (s.waitObfSet .engine))

/-- Step `R6` (42_read_transaction.md R126). -/
def execStepR6 (s : State) : Host.Outcome State Fault Refusal :=
  .next (portStep (fun b t => ({ t with rdata := b } : State).goto .r7) (s.ioRead .engine .data))

/-- Step `R7`: one status read, its byte discarded, then the completion rule of the operation in progress
(42_read_transaction.md R127). Where `FE` names no reading operation there is no such rule (log entry 13). -/
def execStepR7 (s : State) : Host.Outcome State Fault Refusal :=
  match readCompletion s.fe, s.ioRead .engine .sc with
  | some finish, answer => .next (portStep (fun _ => finish) answer)
  | none, (.ok _, _) => .fault .noCompletionRule
  | none, (.error, t) => .next (t.failWith .portAccessError .none)
  | none, (.pending, t) => .next t

end Sys2Proof.Machine
end

