-- ==== Sys2Proof/Machine/WriteSteps.lean ====
section
/-! DEFINITION. The meanings of the seven steps of the write transaction (43_write_transaction.md). -/

namespace Sys2Proof.Machine

/-- Step `W1` (43_write_transaction.md R131). -/
def execStepW1 (s : State) : Host.Outcome State Fault Refusal :=
  .next (pollStep .ibfBeforeWriteCmd (State.goto .w2) (s.waitIbfClear .engine))

/-- Step `W2` (43_write_transaction.md R132). -/
def execStepW2 (s : State) : Host.Outcome State Fault Refusal :=
  .next (portStep (fun _ => State.enterPoll .w3) (s.ioWrite .engine .sc s.cfg.k.cmdWrite.toNat))

/-- Step `W3` (43_write_transaction.md R133). -/
def execStepW3 (s : State) : Host.Outcome State Fault Refusal :=
  .next (pollStep .ibfAfterWriteCmd (State.goto .w4) (s.waitIbfClear .engine))

/-- Step `W4` (43_write_transaction.md R134). -/
def execStepW4 (s : State) : Host.Outcome State Fault Refusal :=
  .next (portStep (fun _ => State.enterPoll .w5) (s.ioWrite .engine .data s.offset.toNat))

/-- Step `W5` (43_write_transaction.md R135). -/
def execStepW5 (s : State) : Host.Outcome State Fault Refusal :=
  .next (pollStep .ibfAfterOffset (State.goto .w6) (s.waitIbfClear .engine))

/-- Step `W6` (43_write_transaction.md R136). -/
def execStepW6 (s : State) : Host.Outcome State Fault Refusal :=
  .next (portStep (fun _ => State.enterPoll .w7) (s.ioWrite .engine .data s.wdata.toNat))

/-- Step `W7`: satisfied, the completion rule of the operation in progress runs (43_write_transaction.md R137).
Where `FE` names no writing operation there is no such rule (log entry 13). -/
def execStepW7 (s : State) : Host.Outcome State Fault Refusal :=
  match writeCompletion s.fe, s.waitIbfClear .engine with
  | some finish, answer => .next (pollStep .ibfAfterData finish answer)
  | none, (.satisfied, _) => .fault .noCompletionRule
  | none, (.again, t) => .next t
  | none, (.waiting, t) => .next t
  | none, (.timedOut, t) => .next (t.failWith .ecTimeout .ibfAfterData)
  | none, (.portError, t) => .next (t.failWith .portAccessError .none)

end Sys2Proof.Machine
end

