-- ==== Sys2Proof/Machine/Dispatch.lean ====
section
/-! DEFINITION. One arm per constructor of Instr, each a direct call of its meaning. -/

namespace Sys2Proof.Machine

def exec (i : Instr) (s : State) : Host.Outcome State Fault Refusal :=
  match i with
  | .readRegister o b => Sys2Proof.Machine.execReadRegister o b s
  | .writeRegister o v => Sys2Proof.Machine.execWriteRegister o v s
  | .fanRpmRead a b => Sys2Proof.Machine.execFanRpmRead a b s
  | .tempRead n b => Sys2Proof.Machine.execTempRead n b s
  | .fanLevelWrite a l => Sys2Proof.Machine.execFanLevelWrite a l s
  | .reservedOp5 a b => Sys2Proof.Machine.execReservedOp5 a b s
  | .reservedOp6 a b => Sys2Proof.Machine.execReservedOp6 a b s
  | .reservedOp7 a b => Sys2Proof.Machine.execReservedOp7 a b s
  | .rdEc => Sys2Proof.Machine.execRdEc s
  | .wrEc => Sys2Proof.Machine.execWrEc s
  | .inStatus x => Sys2Proof.Machine.execInStatus x s
  | .inData d => Sys2Proof.Machine.execInData d s
  | .outCmd c => Sys2Proof.Machine.execOutCmd c s
  | .outData b => Sys2Proof.Machine.execOutData b s
  | .waitIbfClear x => Sys2Proof.Machine.execWaitIbfClear x s
  | .waitObfSet x => Sys2Proof.Machine.execWaitObfSet x s
  | .stepIdle => Sys2Proof.Machine.execStepIdle s
  | .stepR1 => Sys2Proof.Machine.execStepR1 s
  | .stepR2 => Sys2Proof.Machine.execStepR2 s
  | .stepR3 => Sys2Proof.Machine.execStepR3 s
  | .stepR4 => Sys2Proof.Machine.execStepR4 s
  | .stepR5 => Sys2Proof.Machine.execStepR5 s
  | .stepR6 => Sys2Proof.Machine.execStepR6 s
  | .stepR7 => Sys2Proof.Machine.execStepR7 s
  | .stepW1 => Sys2Proof.Machine.execStepW1 s
  | .stepW2 => Sys2Proof.Machine.execStepW2 s
  | .stepW3 => Sys2Proof.Machine.execStepW3 s
  | .stepW4 => Sys2Proof.Machine.execStepW4 s
  | .stepW5 => Sys2Proof.Machine.execStepW5 s
  | .stepW6 => Sys2Proof.Machine.execStepW6 s
  | .stepW7 => Sys2Proof.Machine.execStepW7 s

end Sys2Proof.Machine
end

