-- ==== Sys2Proof/Machine/Fetch.lean ====
section
/-! DEFINITION. Which instruction the next step runs, and placing a word there (log entries 3, 14 to 16). -/

namespace Sys2Proof.Machine

/-- The engine has an accept step: it is idle and a request is strobed (10_state.md R16, R22). -/
def State.accepts (s : State) : Bool := s.step == .idle && !s.busy && s.start

/-- The engine's own port operation is on the bus, not answered yet. -/
def State.engineWaits (s : State) : Bool :=
  match s.outstanding with
  | some (.engine, _) => true
  | some (.other, _) => false
  | none => false

/-- The call of another port master that acts before the engine's next port operation: the oldest one, unless the engine
has an accept step, or a port operation of its own on the bus, into which no other falls (20_memory.md R51). -/
def State.nextCall (s : State) : Option Call :=
  if s.accepts || s.engineWaits then none else s.calls.head?

/-- A step runs the strobed request if the engine has an accept step; else the next call of another port master; else
what `STEP`, the program counter, names (10_state.md R13, R22). -/
def State.fetch (s : State) : Except DecodeError Instr :=
  if s.accepts then decode s.cfg .req s.req.toNat
  else
    match s.nextCall with
    | some c => decode s.cfg c.channel.channel c.word
    | none => decode s.cfg .step (stepCode s.step).toNat

/-- The bus carries a port operation of another master, not answered yet. -/
def State.otherWaits (s : State) : Bool :=
  match s.outstanding with
  | some (.other, _) => true
  | some (.engine, _) => false
  | none => false

/-- A call is over when it is answered; until then its master waits. -/
def State.finishCall (s : State) : State := if s.otherWaits then s else { s with calls := s.calls.tail }

/-- What follows the instruction that ran at `before`: a call that ran is over, unless it is not answered. -/
def State.retire (before after : State) : State := if before.nextCall.isSome then after.finishCall else after

/-- The front-end operations that can be in progress at a step (10_state.md R15). -/
def feFits : Step → Fe → Bool
  | .idle, .none => true
  | .idle, _ => false
  | .r1, fe => (readCompletion fe).isSome
  | .r2, fe => (readCompletion fe).isSome
  | .r3, fe => (readCompletion fe).isSome
  | .r4, fe => (readCompletion fe).isSome
  | .r5, fe => (readCompletion fe).isSome
  | .r6, fe => (readCompletion fe).isSome
  | .r7, fe => (readCompletion fe).isSome
  | .w1, fe => (writeCompletion fe).isSome
  | .w2, fe => (writeCompletion fe).isSome
  | .w3, fe => (writeCompletion fe).isSome
  | .w4, fe => (writeCompletion fe).isSome
  | .w5, fe => (writeCompletion fe).isSome
  | .w6, fe => (writeCompletion fe).isSome
  | .w7, fe => (writeCompletion fe).isSome

/-- The raw operation of a step's transaction. -/
def rawFe : Step → Fe
  | .idle => .none
  | .r1 => .rawRd
  | .r2 => .rawRd
  | .r3 => .rawRd
  | .r4 => .rawRd
  | .r5 => .rawRd
  | .r6 => .rawRd
  | .r7 => .rawRd
  | .w1 => .rawWr
  | .w2 => .rawWr
  | .w3 => .rawWr
  | .w4 => .rawWr
  | .w5 => .rawWr
  | .w6 => .rawWr
  | .w7 => .rawWr

/-- The engine at a step, with `BUSY` and `FE` as 10_state.md R15 and R22 tie them to `STEP`, and a free bus. -/
def State.placeAt (st : Step) (s : State) : State :=
  { s with
    step := st
    busy := st != .idle
    start := s.start && st != .idle
    fe := if feFits st s.fe then s.fe else rawFe st
    outstanding := none
    calls := [] }

/-- A request strobed at an idle engine. -/
def State.placeRequest (w : Nat) (s : State) : State :=
  { s.placeAt .idle with req := BitVec.ofNat 19 w, start := true }

/-- A call of another port master as the next thing to run. -/
def State.placeCall (ch : CallChannel) (w : Nat) (s : State) : State :=
  { s with start := false, outstanding := none, calls := [{ channel := ch, word := w }] }

/-- A table word placed where its channel is read: a request at the request port, a `STEP` code in `STEP`, every other
word as a call, written under the state's parameters. A word of no row is a call no channel is wide enough for. -/
def State.placeWord (nbits w : Nat) (s : State) : State :=
  match decodeTableWord nbits w with
  | none => s.placeCall .portop (2 ^ 17 + w)
  | some i =>
    match i.channel with
    | .req => s.placeRequest (encode s.cfg i)
    | .step =>
      match stepOfCode (encode s.cfg i) with
      | some st => s.placeAt st
      | none => s.placeCall .portop (2 ^ 17 + w)
    | .cmd => s.placeCall .cmd (encode s.cfg i)
    | .portop => s.placeCall .portop (encode s.cfg i)
    | .pollIbf => s.placeCall .pollIbf (encode s.cfg i)
    | .pollObf => s.placeCall .pollObf (encode s.cfg i)

end Sys2Proof.Machine
end

