-- ==== Sys2Proof/Machine/ControlLoop.lean ====
section
/-! DEFINITION. The host side the spec describes: curve evaluation and the control loop (45_consumers.md R160 to R167).
It is no part of the block; it sees the engine only through its host registers. -/

namespace Sys2Proof.Machine

/-- The default curve (45_consumers.md R160). -/
def defaultCurve : Curve := [(0, 0), (50, 1), (55, 2), (65, 3), (75, 5), (85, 7)]

/-- The default configuration (45_consumers.md R160). -/
def LoopConfig.default : LoopConfig where
  sensor := 0
  intervalSeconds := 5
  curve := defaultCurve

/-- A loop that starts, the current fan level being `level`, which 45_consumers.md R165 does not state. -/
def ControlLoop.begun (config : LoopConfig) (level : Option Byte) : ControlLoop where
  config := config
  lastLevel := level
  stop := false
  phase := .waiting
  strobes := false

/-- The greatest threshold at or below a temperature. -/
def bestThreshold (reading : Int) : Curve → Option Int
  | [] => none
  | (t, _) :: rest =>
    match bestThreshold reading rest with
    | none => if t ≤ reading then some t else none
    | some u => if t ≤ reading ∧ u < t then some t else some u

/-- The levels the curve pairs with a threshold. -/
def levelsAt (threshold : Int) (curve : Curve) : List Byte :=
  (curve.filter (fun p => p.1 == threshold)).map Prod.snd

/-- `CurveLevel` (45_consumers.md R161): AUTO for an absent reading, else the level of the highest threshold at or below
it. Where R161 states no level (no such threshold, or several levels at it) the level is free (log entry 21). -/
def curveLevel (k : Constants) (curve : Curve) : Option Int → Byte
  | none => k.levelAuto
  | some reading =>
    match bestThreshold reading curve with
    | none => Config.curveOpenLevel curve reading
    | some t =>
      match levelsAt t curve with
      | [] => Config.curveOpenLevel curve reading
      | l :: rest => if rest.all (· == l) then l else Config.curveOpenLevel curve reading

/-- What a `TEMP_READ` result tells the loop: a temperature, an absent sensor, or a failed cycle (45_consumers.md R163,
R166). `RES_DATA` is used only with `Ok` (44_derived_operations.md R149). -/
def tempReading (res : BitVec 22) : Option (Option Int) :=
  match kindOfCode (resKind res) with
  | some .ok => some (some (resData res).toInt)
  | some .sensorUnavailable => some none
  | _ => none

/-- The `REQ` word of an operation (30_encoding.md R74). -/
def reqOf (p : Params) (i : Instr) : BitVec 19 := BitVec.ofNat 19 (encode p i)

/-- Presenting a request with `START` = 1 (10_state.md R16). -/
def State.submit (i : Instr) (s : State) : State := { s with req := reqOf s.cfg i, start := true }

/-- The loop presents a request of its own and enters the phase in which it waits for its result. -/
def State.loopSubmit (l : ControlLoop) (phase : LoopPhase) (i : Instr) (s : State) : State :=
  ({ s with loop := some { l with phase := phase, strobes := true } } : State).submit i

/-- A strobe lasts one step, whosever it is (log entry 3). -/
def State.endStrobe (s : State) : State :=
  { s with start := false, loop := s.loop.map (fun l => { l with strobes := false }) }

/-- Start-up: the loop acquires the access handle, which makes the mechanism available, or fails at once and there is no
loop (45_consumers.md R167, 70_reset_and_hazards.md R225). A loop that runs is left alone. The current fan level is free
(45_consumers.md R165, 91_not_in_source.md N15; log entry 22). -/
def State.loopStart (config : LoopConfig) (acquired : Bool) (s : State) : State :=
  let fresh : Bool :=
    match s.loop with
    | none => true
    | some l => l.phase == .stopped
  if fresh && acquired then
    { s with
      loop := some (ControlLoop.begun config (Config.initialLevel s.env.draws))
      palReady := true
      env := { s.env with draws := s.env.draws + 1 } }
  else s

/-- The timer fires: one cycle starts, or after a stop signal the shutdown write (45_consumers.md R163, R164, R167).
The loop submits only to an idle engine at which no request is strobed. -/
def State.loopTimer (s : State) : State :=
  match s.loop with
  | none => s
  | some l =>
    if l.phase = .waiting ∧ s.busy = false ∧ s.start = false then
      if l.stop then
        s.loopSubmit l .restoring (.fanLevelWrite 0 s.cfg.k.levelAuto)
      else s.loopSubmit l .reading (.tempRead l.config.sensor 0)
    else s

/-- The external stop signal; it is looked at once per cycle (45_consumers.md R164). -/
def State.loopStop (s : State) : State :=
  match s.loop with
  | none => s
  | some l => { s with loop := some { l with stop := true } }

/-- The loop has a request of its own strobed, which no other host overwrites: one operation at a time inside the
process (20_memory.md R54; log entry 22). -/
def State.loopStrobes (s : State) : Bool :=
  match s.loop with
  | none => false
  | some l => l.strobes

/-- A reset takes the operation the loop waits for. The spec does not say what a host then does; here the loop waits for
its timer again, unless its request is strobed and not accepted yet, which the reset leaves as it leaves every input
(70_reset_and_hazards.md R222, 10_state.md R28). Another host's strobe decides nothing (DESIGN CHOICE, log entry 22). -/
def State.loopReset (s : State) : State :=
  match s.loop with
  | none => s
  | some l =>
    if l.strobes || l.phase == .stopped then s else { s with loop := some { l with phase := .waiting } }

/-- The loop's reaction to a finished operation of its own: the level is written only on change, a failed cycle is
skipped, the level last written successfully is remembered, and after the write of AUTO the access handle is released
(45_consumers.md R163, R165 to R167). -/
def State.loopReact (s : State) : State :=
  match s.loop with
  | none => s
  | some l =>
    if s.busy = false ∧ s.done = true ∧ s.start = false then
      match l.phase with
      | .reading =>
        match tempReading s.res with
        | none => { s with loop := some { l with phase := .waiting } }
        | some reading =>
          let level := curveLevel s.cfg.k l.config.curve reading
          if l.lastLevel = some level then { s with loop := some { l with phase := .waiting } }
          else s.loopSubmit l (.writing level) (.fanLevelWrite 0 level)
      | .writing level =>
        if kindOfCode (resKind s.res) = some .ok then
          { s with loop := some { l with phase := .waiting, lastLevel := some level } }
        else { s with loop := some { l with phase := .waiting } }
      | .restoring => { s with loop := some { l with phase := .stopped }, palReady := false }
      | .waiting => s
      | .stopped => s
    else s

end Sys2Proof.Machine
end

