-- ==== Sys2Proof/Machine/HostPort.lean ====
section
/-! DEFINITION. What the outside does to the machine between two steps: host register access, reset, the environment's
events (10_state.md R16 to R21, 45_consumers.md R170, 70_reset_and_hazards.md R220 to R222). -/

namespace Sys2Proof.Machine

/-- Reading `BUSY` (10_state.md R17). -/
def State.readBusy (s : State) : Bool := s.busy

/-- Reading `DONE` (10_state.md R18). -/
def State.readDone (s : State) : Bool := s.done

/-- Reading `RES` (10_state.md R19). It is meaningful only while `DONE` is 1. -/
def State.readRes (s : State) : BitVec 22 := s.res

/-- Reading `TIMEOUT` (10_state.md R20). -/
def State.readTimeout (s : State) : BitVec 32 := s.timeout

/-- Reading `PAL_READY` (10_state.md R21). -/
def State.readPalReady (s : State) : Bool := s.palReady

/-- Writing `TIMEOUT`, the host's one register write (10_state.md R20, 60_exceptions.md R196). -/
def State.writeTimeout (ticks : BitVec 32) (s : State) : State := { s with timeout := ticks }

/-- The environment after a reset hit a port operation of the engine in flight, which may or may not have had its effect
(70_reset_and_hazards.md R222). -/
def State.abandonPortOp (reached : Bool) (s : State) : Environment :=
  match s.outstanding with
  | none => s.env
  | some (.engine, r) => if reached then (s.reachEc r).2 else s.env
  | some (.other, _) => s.env

/-- A reset ends the engine's own request on the bus and leaves another master's alone (log entry 12). -/
def State.keptRequest (s : State) : Option (Master × PortRequest) := if s.engineWaits then none else s.outstanding

/-- Reset of the engine (70_reset_and_hazards.md R220 to R222). The data registers and `DEADLINE` are unspecified
afterwards: free values (93_implementation_defined.md U16, log entry 12). -/
def State.engineReset (reached : Bool) (s : State) : State :=
  let env := s.abandonPortOp reached
  { s with
    step := .idle
    fe := .none
    busy := false
    done := false
    res := 0
    timeout := timeoutReset s.cfg
    outstanding := s.keptRequest
    offset := Config.resetByte env.draws 0
    wdata := Config.resetByte env.draws 1
    rdata := Config.resetByte env.draws 2
    lsb := Config.resetByte env.draws 3
    deadline := Config.resetDeadline env.draws
    env := { env with draws := env.draws + 1 } }

/-- One event of the environment. -/
def State.applyEvent (s : State) : EnvEvent → State
  | .request req start => if s.loopStrobes then s else { s with req := req, start := start }
  | .writeTimeout ticks => s.writeTimeout ticks
  | .palReady ready => { s with palReady := ready }
  | .reset reached => (s.engineReset reached).loopReset
  | .drive c => { s with calls := s.calls ++ [c] }
  | .loopStart config acquired => s.loopStart config acquired
  | .loopTimer => s.loopTimer
  | .loopStop => s.loopStop

/-- The next batch of events, any number of them, each applied in turn. -/
def State.applyBatch (s : State) : State :=
  match s.inputs with
  | [] => s
  | batch :: rest => batch.foldl State.applyEvent { s with inputs := rest }

/-- Between two steps: the strobe has lasted its one step, the control loop sees a finished operation of its own, the
clock moves, the environment acts any number of times (10_state.md R22; log entries 3, 4). -/
def State.betweenSteps (s : State) : State := (s.endStrobe.loopReact.elapse 0).applyBatch

end Sys2Proof.Machine
end

