-- ==== Sys2Proof/Machine/Step.lean ====
section
/-! DEFINITION. One step of the machine. -/

namespace Sys2Proof.Machine

/-- One step: the fetched instruction runs, then the environment acts any number of times (10_state.md R22). -/
def step (s : State) : Host.Outcome State Fault Refusal :=
  match s.fetch with
  | .error e => .refused (.undecodable e)
  | .ok i =>
    match exec i s with
    | .next t => .next (s.retire t).betweenSteps
    | .fault f => .fault f
    | .refused r => .refused r

/-- `s` with a table word placed where the next step reads its instruction (log entries 14 to 16). -/
def State.withFetchWord (s : State) (nbits w : Nat) : State := s.placeWord nbits w

end Sys2Proof.Machine
end

