-- ==== Sys2Proof/Safety.lean ====
section
/-! DEFINITION. What a safe run is, in the terms the statements use. -/

namespace Sys2Proof.Safety

open Sys2Proof.Machine

/-! ### The environment of a statement -/

/-- `EXCLUSIVE_PORTS`: while `BUSY` is 1 no other master has a port operation to make or on the bus (20_memory.md R55). -/
def ExclusivePorts (s : State) : Prop :=
  s.busy = true → s.calls = [] ∧ ∀ r, s.outstanding ≠ some (.other, r)

/-- Every word another master asks for is a row of the opcode table. -/
def CallsDecode (s : State) : Prop := ∀ c ∈ s.calls, ∃ i, decode s.cfg c.channel.channel c.word = .ok i

/-- The bus takes the master's request: it is on the bus already, or the bus is free and the mechanism available. -/
def BusTakes (m : Master) (r : PortRequest) (s : State) : Prop :=
  s.outstanding = some (m, r) ∨ s.outstanding = none ∧ s.palReady = true

/-- The bus takes the master's request and the mechanism answers it without error now. -/
def PortPasses (m : Master) (r : PortRequest) (s : State) : Prop := BusTakes m r s ∧ s.mechanism r = .pass

/-- The engine has no port operation on the bus. -/
def EngineOffBus (s : State) : Prop := ∀ r, s.outstanding ≠ some (.engine, r)

/-- No reset is among these batches of events. -/
def NoReset (inputs : List (List EnvEvent)) : Prop := ∀ batch ∈ inputs, ∀ e ∈ batch, ∀ b, e ≠ .reset b

/-- Every engine register, input, parameter and host field of `t` is that of `s`: only the clock, the agents on the bus,
the trace and the outstanding request may differ (40_port_access.md R100). -/
def OnlyBusMoved (s t : State) : Prop :=
  t = { s with now := t.now, env := t.env, trace := t.trace, outstanding := t.outstanding }

/-- A test bench: the oracle EC with answers decided, every operation passes, deterministic time, nobody else acts. -/
def Bench (s : State) : Prop :=
  s.calls = [] ∧ s.inputs = [] ∧ s.loop = none ∧ s.env.clock = .deterministic ∧ s.env.plan = [] ∧
    s.env.reliable = true ∧ s.palReady = true ∧ s.outstanding = none

/-- A bench with the oracle EC. -/
def OracleBench (s : State) : Prop := Bench s ∧ s.env.ecKind = .oracle

/-- A bench with the reference EC in a clean state: nothing pending, nobody stuck, no violation (20_memory.md R61). -/
def CleanReferenceBench (s : State) : Prop :=
  Bench s ∧ s.env.ecKind = .reference ∧ s.env.ec.ibf = false ∧ s.env.ec.obf = false ∧ s.env.ec.pend = none ∧
    s.env.ec.phase = .idle ∧ s.env.ec.stuck0 = false ∧ s.env.ec.violation = false

/-- The engine is idle and the request word is strobed (44_derived_operations.md R140). -/
def Requested (w : BitVec 19) (s : State) : Prop :=
  s.step = .idle ∧ s.fe = .none ∧ s.busy = false ∧ s.start = true ∧ s.req = w

/-! ### Consistency of the engine's registers -/

/-- What the operation in progress fixes of `OFFSET` and `WDATA` (44_derived_operations.md R143 to R147). -/
def operandsFit (k : Constants) (fe : Fe) (offset wdata : Byte) : Bool :=
  match fe with
  | .none => true
  | .rawRd => true
  | .rawWr => true
  | .rpmLsb => offset == k.regRpmLsb
  | .rpmMsb => offset == k.regRpmMsb
  | .temp => decide (offset - k.tempBase ≤ k.sensorMax)
  | .level => offset == k.regFanStatus && legalLevel k wdata

/-- The derived operations need the front end (10_state.md R15). -/
def frontEndFits (hasFrontEnd : Bool) : Fe → Bool
  | .none => true
  | .rawRd => true
  | .rawWr => true
  | .rpmLsb => hasFrontEnd
  | .rpmMsb => hasFrontEnd
  | .temp => hasFrontEnd
  | .level => hasFrontEnd

/-- A result word the engine can hold: a stage exactly with `EcTimeout`, data only with `Ok` (30_encoding.md R76, R89). -/
def resFits (r : BitVec 22) : Bool :=
  match kindOfCode (resKind r) with
  | some .ok => resStage r == 0
  | some .ecTimeout => resStage r != 0 && resData r == 0
  | some .portAccessError => resStage r == 0 && resData r == 0
  | some .invalidArgument => resStage r == 0 && resData r == 0
  | some .sensorUnavailable => resStage r == 0 && resData r == 0
  | none => false

/-- The registers of the engine agree with each other (10_state.md R15, R17, R18, R19, R22). -/
structure Consistent (s : State) : Prop where
  busy_iff : s.busy = (s.step != .idle)
  fe_fits : feFits s.step s.fe = true
  busy_not_done : s.busy = true → s.done = false
  front_end : frontEndFits s.cfg.hasFrontEnd s.fe = true
  operands : operandsFit s.cfg.k s.fe s.offset s.wdata = true
  res_fits : resFits s.res = true

/-! ### The handshake (20_memory.md R53) -/

/-- The newest operation of a trace is a status read of the engine, answered with a byte that satisfies `f`. -/
def lastStatus (f : Byte → Bool) : List PortEvent → Bool
  | { master := .engine, dir := .read, port := .sc, byte := some b } :: _ => f b
  | _ => false

/-- What an operation of the engine asks of the one before it: a write, IBF seen clear; a data read, OBF seen set. -/
def precededWell (cfg : Params) (e : PortEvent) (before : List PortEvent) : Bool :=
  match e.master, e.dir, e.port with
  | .engine, .write, _ => lastStatus (fun b => !ibfFlag cfg b) before
  | .engine, .read, .data => lastStatus (fun b => obfFlag cfg b) before
  | .engine, .read, .sc => true
  | .other, _, _ => true

/-- Every operation of a trace (newest first) is preceded as the handshake rule asks. -/
def handshakeKept (cfg : Params) : List PortEvent → Bool
  | [] => true
  | e :: before => precededWell cfg e before && handshakeKept cfg before

/-- What the sequencer has just seen at a step that sends or takes a byte, or has just taken at `R7`. -/
def seenBefore (cfg : Params) (rdata : Byte) (trace : List PortEvent) : Step → Bool
  | .r2 => lastStatus (fun b => !ibfFlag cfg b) trace
  | .r4 => lastStatus (fun b => !ibfFlag cfg b) trace
  | .w2 => lastStatus (fun b => !ibfFlag cfg b) trace
  | .w4 => lastStatus (fun b => !ibfFlag cfg b) trace
  | .w6 => lastStatus (fun b => !ibfFlag cfg b) trace
  | .r6 => lastStatus (fun b => obfFlag cfg b) trace
  | .r7 => trace.head? == some { master := .engine, dir := .read, port := .data, byte := some rdata }
  | .idle => true
  | .r1 => true
  | .r3 => true
  | .r5 => true
  | .w1 => true
  | .w3 => true
  | .w5 => true
  | .w7 => true

/-- The handshake holds of everything done so far and of what the sequencer does next. -/
def Handshake (s : State) : Prop :=
  handshakeKept s.cfg s.trace = true ∧ seenBefore s.cfg s.rdata s.trace s.step = true

/-- An answered write of the engine to the command port carries one of the two command codes (30_encoding.md R72). -/
def commandKnown (k : Constants) (e : PortEvent) : Bool :=
  match e.master, e.dir, e.port, e.byte with
  | .engine, .write, .sc, some b => b == k.cmdRead || b == k.cmdWrite
  | .engine, .write, .sc, none => true
  | .engine, .write, .data, _ => true
  | .engine, .read, _, _ => true
  | .other, _, _, _ => true

/-! ### The control loop and its own operation (45_consumers.md R163, R167) -/

/-- The request of a phase in which the loop waits for a result. -/
def loopRequest (k : Constants) (l : ControlLoop) : Option Instr :=
  match l.phase with
  | .reading => some (.tempRead l.config.sensor 0)
  | .writing level => some (.fanLevelWrite 0 level)
  | .restoring => some (.fanLevelWrite 0 k.levelAuto)
  | .waiting => none
  | .stopped => none

/-- The operation in progress is the one the loop waits for. -/
def loopOperation (s : State) (l : ControlLoop) : Prop :=
  match l.phase with
  | .reading => s.fe = .temp
  | .writing level => s.fe = .level ∧ s.wdata = level
  | .restoring => s.fe = .level ∧ s.wdata = s.cfg.k.levelAuto
  | .waiting => True
  | .stopped => True

/-- A loop that waits for a result has its own request strobed at an idle engine, or its own operation in progress. -/
def LoopFits (s : State) : Prop :=
  ∀ l, s.loop = some l →
    (l.strobes = true → s.start = true ∧ s.busy = false ∧
      ∃ i, loopRequest s.cfg.k l = some i ∧ s.req = reqOf s.cfg i) ∧
    (l.strobes = false → loopRequest s.cfg.k l ≠ none → s.busy = true ∧ loopOperation s l)

/-! ### The moves of `STEP` (10_state.md R14) -/

/-- The moves of R14 other than staying: advance, exit to `IDLE`, accept, and the second half of a fan RPM read. -/
def stepEdge : Step → Step → Bool
  | .idle, .r1 => true
  | .idle, .w1 => true
  | .r1, .r2 => true
  | .r2, .r3 => true
  | .r3, .r4 => true
  | .r4, .r5 => true
  | .r5, .r6 => true
  | .r6, .r7 => true
  | .r7, .r1 => true
  | .w1, .w2 => true
  | .w2, .w3 => true
  | .w3, .w4 => true
  | .w4, .w5 => true
  | .w5, .w6 => true
  | .w6, .w7 => true
  | .idle, _ => false
  | _, .idle => true
  | _, _ => false

/-- The poll steps, the only ones that stay on an answer (10_state.md R14). -/
def isPollStep : Step → Bool
  | .r1 => true
  | .r3 => true
  | .r5 => true
  | .w1 => true
  | .w3 => true
  | .w5 => true
  | .w7 => true
  | .idle => false
  | .r2 => false
  | .r4 => false
  | .r6 => false
  | .r7 => false
  | .w2 => false
  | .w4 => false
  | .w6 => false

/-- The value a poll step waits for, seen in a status byte (41_polling.md R112, R113). -/
def pollSatisfied (cfg : Params) (st : Step) (b : Byte) : Bool :=
  match st with
  | .r5 => obfFlag cfg b
  | _ => !ibfFlag cfg b

/-- The stage tag of a poll step (30_encoding.md R77). -/
def pollStage : Step → Stage
  | .r1 => .ibfBeforeReadCmd
  | .r3 => .ibfBeforeOffset
  | .r5 => .obfAfterOffset
  | .w1 => .ibfBeforeWriteCmd
  | .w3 => .ibfAfterWriteCmd
  | .w5 => .ibfAfterOffset
  | .w7 => .ibfAfterData
  | .idle => .none
  | .r2 => .none
  | .r4 => .none
  | .r6 => .none
  | .r7 => .none
  | .w2 => .none
  | .w4 => .none
  | .w6 => .none

/-- A channel of the engine's own: a request, or the code in `STEP`. -/
def ownChannel : Channel → Bool
  | .req => true
  | .step => true
  | .cmd => false
  | .portop => false
  | .pollIbf => false
  | .pollObf => false

/-- The reads a failing poll makes in the deterministic model: `N = max(1, ceil(T / c))` (41_polling.md R114). -/
def pollReads (timeout ticks : Nat) : Nat := max 1 ((timeout + ticks - 1) / ticks)

/-! ### Runs and the fairness of the clock (60_exceptions.md R202) -/

/-- An infinite run. -/
def IsRun (r : Nat → State) : Prop := ∀ n, step (r n) = .next (r (n + 1))

/-- A status read of the engine in a trace. -/
def isEngineStatusRead (e : PortEvent) : Bool := e.master == .engine && e.dir == .read && e.port == .sc

/-- A run in which the engine keeps issuing status reads: their number grows without bound. -/
def KeepsReadingStatus (r : Nat → State) : Prop := ∀ k, ∃ n, k ≤ (r n).trace.countP isEngineStatusRead

/-- The fairness assumption on the clock: in a run in which the engine keeps issuing status reads, `NOW` grows without
bound (60_exceptions.md R202). -/
def ClockFair (r : Nat → State) : Prop := KeepsReadingStatus r → ∀ k, ∃ n, k ≤ (r n).now

/-- Every port operation on the bus is answered some time (60_exceptions.md R202, 70_reset_and_hazards.md R240). -/
def PortOpsAnswered (r : Nat → State) : Prop := ∀ n, ∃ m, n ≤ m ∧ (r m).outstanding = none

end Sys2Proof.Safety
end

