-- ==== Sys2Proof/Certificates/Slice0/Obligations.lean ====
section
/-! DEFINITION. The statements for the provers. Each docstring names the rule it formalises. -/

open Sys2Proof Sys2Proof.Machine Sys2Proof.Safety

/-! ### Shapes several statements share -/

/-- The state after `Complete(kind, stage, data)` (44_derived_operations.md R150), written out. -/
def Sys2Proof.Safety.endedWith (kind : ResKind) (stage : Stage) (data : Half) (t : State) : State :=
  { t with res := packRes kind stage data, step := .idle, fe := .none, busy := false, done := true }

/-- A poll step, from the answer of its one status read: advance, stay, time out with its tag, fail on a port error; and
stay while no answer has come. Nothing else is written: the read itself moves only the clock and the agents on the bus. -/
def Sys2Proof.Safety.PollStepSays (i : Instr) (st target : Step) : Prop :=
  ∀ s t : State,
    (∀ answer, s.ioRead .engine .sc = (answer, t) → OnlyBusMoved s t) ∧
    (∀ b, s.ioRead .engine .sc = (.ok b, t) →
      (pollSatisfied s.cfg st b = true → exec i s = .next { t with step := target }) ∧
      (pollSatisfied s.cfg st b = false → t.now < t.deadline → exec i s = .next t) ∧
      (pollSatisfied s.cfg st b = false → t.deadline ≤ t.now →
        exec i s = .next (endedWith .ecTimeout (pollStage st) 0 t))) ∧
    (s.ioRead .engine .sc = (.error, t) → exec i s = .next (endedWith .portAccessError .none 0 t)) ∧
    (s.ioRead .engine .sc = (.pending, t) → exec i s = .next t)

/-- A step that writes one byte to a port: advance with poll entry, fail on a port error, wait for an answer. Nothing else
is written. -/
def Sys2Proof.Safety.WriteStepSays (i : Instr) (p : Port) (byte : State → Byte) (target : Step) : Prop :=
  ∀ s t : State,
    (∀ answer, s.ioWrite .engine p (byte s).toNat = (answer, t) → OnlyBusMoved s t) ∧
    (∀ b, s.ioWrite .engine p (byte s).toNat = (.ok b, t) →
      exec i s = .next { t with step := target, deadline := t.now + t.timeout.toNat }) ∧
    (s.ioWrite .engine p (byte s).toNat = (.error, t) → exec i s = .next (endedWith .portAccessError .none 0 t)) ∧
    (s.ioWrite .engine p (byte s).toNat = (.pending, t) → exec i s = .next t)

/-- A primitive that another port master asks for: it completes, its answer is recorded, the trace grows by that one
operation, and no engine register changes. -/
def Sys2Proof.Safety.PrimitiveSays (i : Instr) (r : State → PortRequest) (byte : State → Byte) : Prop :=
  ∀ s : State, PortPasses .other (r s) s →
    ∃ t, exec i s = .next t ∧ t.primResult = .port (.ok (byte s)) ∧
      t.trace = { master := .other, dir := (r s).dir, port := (r s).port, byte := some (byte s) } :: s.trace ∧
      OnlyBusMoved s { t with primResult := s.primResult }

/-- The seven port operations of the shortest read transaction of offset `o`, newest first (42_read_transaction.md R128). -/
def Sys2Proof.Safety.readTrace (o s1 s2 s3 d s4 : Byte) : List PortEvent :=
  [{ master := .engine, dir := .read, port := .sc, byte := some s4 }, { master := .engine, dir := .read, port := .data, byte := some d },
   { master := .engine, dir := .read, port := .sc, byte := some s3 }, { master := .engine, dir := .write, port := .data, byte := some o },
   { master := .engine, dir := .read, port := .sc, byte := some s2 }, { master := .engine, dir := .write, port := .sc, byte := some 0x80 },
   { master := .engine, dir := .read, port := .sc, byte := some s1 }]

/-- The seven port operations of the shortest write transaction, newest first (43_write_transaction.md R138). -/
def Sys2Proof.Safety.writeTrace (o v s1 s2 s3 s4 : Byte) : List PortEvent :=
  [{ master := .engine, dir := .read, port := .sc, byte := some s4 }, { master := .engine, dir := .write, port := .data, byte := some v },
   { master := .engine, dir := .read, port := .sc, byte := some s3 }, { master := .engine, dir := .write, port := .data, byte := some o },
   { master := .engine, dir := .read, port := .sc, byte := some s2 }, { master := .engine, dir := .write, port := .sc, byte := some 0x81 },
   { master := .engine, dir := .read, port := .sc, byte := some s1 }]

/-! ### Encoding -/

/-- Words written out from 30_encoding.md R72 to R75, R78 and the patterns of the opcode table. -/
def Obligations.WordsFromTheTablesDecode : Prop :=
  decode Params.default .req 0b0000111100000000000 = .ok (.readRegister 0x78 0x00) ∧
  decode Params.default .req 0b0010010111100000011 = .ok (.writeRegister 0x2F 0x03) ∧
  decode Params.default .req 0b0100000000000000000 = .ok (.fanRpmRead 0 0) ∧
  decode Params.default .req 0b0110000001000000000 = .ok (.tempRead 2 0) ∧
  decode Params.default .req 0b1000000000010000000 = .ok (.fanLevelWrite 0 0x80) ∧
  decode Params.default .req 0b1010001001000110100 = .ok (.reservedOp5 0x12 0x34) ∧
  decode Params.default .cmd 0b10000000 = .ok .rdEc ∧
  decode Params.default .cmd 0b10000001 = .ok .wrEc ∧
  decode Params.default .portop 0b00110011000000010 = .ok (.inStatus 0x02) ∧
  decode Params.default .portop 0b10110001001111000 = .ok (.outData 0x78) ∧
  decode Params.default .pollIbf 0b11111101 = .ok (.waitIbfClear 0xFD) ∧
  decode Params.default .pollObf 0b00000011 = .ok (.waitObfSet 0x03) ∧
  decode Params.default .step 0b0111 = .ok .stepR7 ∧
  decode Params.default .step 0b1001 = .ok .stepW1 ∧
  decode Params.default .cmd 0x82 = .error .commandUnknown ∧
  decode Params.default .portop 0x06400 = .error .portUnknown ∧
  decode Params.default .step 8 = .error .stepCodeUnused

/-- Decoding what was encoded gives the instruction back, with every operand, whatever the parameters (30_encoding.md R71
to R75, R78; 10_state.md R29). -/
def Obligations.DecodeOfEncodeIsTheInstruction : Prop :=
  ∀ (p : Params) (i : Instr), p.wf = true → i.WellFormed p = true → decode p i.channel (encode p i) = .ok i

/-- What decodes is well formed, travels on that channel and encodes to the very word: no word has two meanings on a
channel, whatever the parameters. -/
def Obligations.EncodeOfDecodeIsTheWord : Prop :=
  ∀ (p : Params) (ch : Channel) (w : Nat) (i : Instr), decode p ch w = .ok i →
    i.WellFormed p = true ∧ i.channel = ch ∧ encode p i = w

/-- Every 19-bit word is a request; every `STEP` code but 8 names a step (30_encoding.md R75, R78, R89). -/
def Obligations.EveryRequestWordAndUsedStepCodeDecodes : Prop :=
  ∀ p : Params,
    (∀ w, w < 2 ^ 19 → ∃ i, decode p .req w = .ok i) ∧
    (∀ w, w < 16 → ((∃ i, decode p .step w = .ok i) ↔ w ≠ 8)) ∧
    (∀ st : Step, ∃ i, decode p .step (stepCode st).toNat = .ok i)

/-! ### The step -/

/-- A step runs the fetched instruction, then the environment acts: the strobed request if the engine has an accept step,
else the oldest call of another port master unless the engine's own port operation is on the bus, else the code in `STEP`
(10_state.md R13, R22). The model's choices in it: a step ends with what the environment does (log entries 3, 4), another
master's calls stand in a queue that runs before the engine's next port operation, and a call is over when it is
answered (log entry 15), and a call that is no row of the table is refused by name (log entry 28). -/
def Obligations.StepRunsTheFetchedInstruction : Prop :=
  (∀ (s t : State) (i : Instr), s.fetch = .ok i → exec i s = .next t → step s = .next (s.retire t).betweenSteps) ∧
  (∀ (s : State) (i : Instr) (f : Fault), s.fetch = .ok i → exec i s = .fault f → step s = .fault f) ∧
  (∀ (s : State) (e : DecodeError), s.fetch = .error e → step s = .refused (.undecodable e)) ∧
  (∀ s : State, s.step = .idle → s.busy = false → s.start = true →
    s.fetch = decode s.cfg .req s.req.toNat ∧ ∀ t, s.retire t = t) ∧
  (∀ (s : State) (c : Call) (rest : List Call), s.calls = c :: rest →
    ¬(s.step = .idle ∧ s.busy = false ∧ s.start = true) → EngineOffBus s →
    s.fetch = decode s.cfg c.channel.channel c.word ∧
    ∀ t, ((∃ r, t.outstanding = some (.other, r)) → s.retire t = t) ∧
      ((∀ r, t.outstanding ≠ some (.other, r)) → s.retire t = { t with calls := t.calls.tail })) ∧
  (∀ s : State, ¬(s.step = .idle ∧ s.busy = false ∧ s.start = true) →
    (s.calls = [] ∨ ∃ r, s.outstanding = some (.engine, r)) →
    s.fetch = decode s.cfg .step (stepCode s.step).toNat ∧ ∀ t, s.retire t = t)

/-- Between two steps of a machine with no control loop in deterministic time: the strobe ends and the next batch of
events, any number of them, is applied in order; nothing else happens (10_state.md R22). That events stand in a list of
batches and a strobe lasts one step is the model's choice (log entries 3, 4). -/
def Obligations.EnvironmentActsAnyNumberOfTimesBetweenSteps : Prop :=
  ∀ s : State, s.loop = none → s.env.clock = .deterministic →
    (s.inputs = [] → s.betweenSteps = { s with start := false }) ∧
    (∀ batch rest, s.inputs = batch :: rest →
      s.betweenSteps = batch.foldl State.applyEvent { s with start := false, inputs := rest })

/-! ### Reset -/

/-- 70_reset_and_hazards.md R220, of the reset state and of a reset at any state: every register R28 gives a value has it,
no port operation is made, and until a request arrives the engine has no step that changes anything. With no operation of
the engine in flight the clock, the EC and the mechanism are as before. `TIMEOUT_RESET` is 200 ms in ticks, rounded up. -/
def Obligations.ResetLeavesTheEngineIdle : Prop :=
  (∀ t : State, (t = State.reset ∨ ∃ (s : State) (b : Bool), t = s.engineReset b ∨ t = s.applyEvent (.reset b)) →
      t.step = .idle ∧ t.fe = .none ∧ t.busy = false ∧ t.done = false ∧ t.res = 0 ∧
      t.timeout = timeoutReset t.cfg ∧ EngineOffBus t ∧
      (t.calls = [] → t.start = false → t.fetch = .ok .stepIdle) ∧
      (t.start = false → exec .stepIdle t = .next t)) ∧
  (∀ (s : State) (b : Bool), (s.engineReset b).trace = s.trace ∧ (s.engineReset b).now = s.now ∧
    (s.engineReset b).cfg = s.cfg ∧ (s.engineReset b).palReady = s.palReady ∧
    (EngineOffBus s → (s.engineReset b).env = { s.env with draws := s.env.draws + 1 })) ∧
  (∀ p : Params, (p.k.timeoutMs * p.tickHz + 999) / 1000 < 2 ^ 32 →
    (timeoutReset p).toNat * 1000 < p.k.timeoutMs * p.tickHz + 1000 ∧
    p.k.timeoutMs * p.tickHz ≤ (timeoutReset p).toNat * 1000)

/-- 70_reset_and_hazards.md R222: a reset in the middle of an operation leaves the engine idle without a result and with
nothing in flight, the EC as it was; a port operation in flight may or may not have had its effect there. -/
def Obligations.ResetMidOperationGivesNoResult : Prop :=
  ∀ (s : State) (b : Bool), s.busy = true →
    (s.engineReset b).step = .idle ∧ (s.engineReset b).fe = .none ∧ (s.engineReset b).busy = false ∧
    (s.engineReset b).done = false ∧ (s.engineReset b).res = 0 ∧ EngineOffBus (s.engineReset b) ∧
    (s.engineReset b).trace = s.trace ∧
    (EngineOffBus s → (s.engineReset b).env.ec = s.env.ec) ∧
    (∀ r, s.outstanding = some (.engine, r) →
      (s.engineReset false).env.ec = s.env.ec ∧ (s.engineReset true).env.ec = (s.reachEc r).2.ec)

/-! ### Accepting -/

/-- The accept step of the two raw operations (44_derived_operations.md R140): any offset, any value. -/
def Obligations.RawRequestsAreAccepted : Prop :=
  ∀ (s : State) (o b v : Byte), s.step = .idle → s.busy = false →
    exec (.readRegister o b) s =
      .next { s with fe := .rawRd, offset := o, step := .r1, busy := true, done := false,
                     deadline := s.now + s.timeout.toNat } ∧
    exec (.writeRegister o v) s =
      .next { s with fe := .rawWr, offset := o, wdata := v, step := .w1, busy := true, done := false,
                     deadline := s.now + s.timeout.toNat }

/-- The accept step of the derived operations (44_derived_operations.md R140, R143, R145, R147), with the front end. -/
def Obligations.DerivedRequestsAreAccepted : Prop :=
  ∀ (s : State) (a b i l : Byte), s.step = .idle → s.busy = false → s.cfg.hasFrontEnd = true →
    s.cfg.k = Constants.source →
    exec (.fanRpmRead a b) s =
      .next { s with fe := .rpmLsb, offset := 0x84, step := .r1, busy := true, done := false,
                     deadline := s.now + s.timeout.toNat } ∧
    (i.toNat ≤ 7 → exec (.tempRead i b) s =
      .next { s with fe := .temp, offset := BitVec.ofNat 8 (0x78 + i.toNat), step := .r1, busy := true, done := false,
                     deadline := s.now + s.timeout.toNat }) ∧
    (l.toNat ∈ [0, 1, 2, 3, 4, 5, 6, 7, 0x40, 0x80] → exec (.fanLevelWrite a l) s =
      .next { s with fe := .level, offset := 0x2F, wdata := l, step := .w1, busy := true, done := false,
                     deadline := s.now + s.timeout.toNat })

/-- 44_derived_operations.md R144, R146: `TEMP_READ` accepts the indices 0 to 7 and `FAN_LEVEL_WRITE` the ten legal levels;
every other value ends in the accept step with `InvalidArgument` and no port operation, mechanism available or not. -/
def Obligations.BadArgumentsAreRejected : Prop :=
  (∀ l : Byte, legalLevel Constants.source l = true ↔ l.toNat ∈ [0, 1, 2, 3, 4, 5, 6, 7, 0x40, 0x80]) ∧
  ∀ (s : State) (a b i l : Byte), s.step = .idle → s.busy = false → s.cfg.k = Constants.source →
    (i.toNat ≤ 7 → s.cfg.hasFrontEnd = true → ∃ t, exec (.tempRead i b) s = .next t ∧ t.busy = true) ∧
    (7 < i.toNat → exec (.tempRead i b) s =
      .next { s with res := packRes .invalidArgument .none 0, done := true }) ∧
    (legalLevel Constants.source l = true → s.cfg.hasFrontEnd = true → ∃ t, exec (.fanLevelWrite a l) s = .next t ∧ t.busy = true) ∧
    (legalLevel Constants.source l = false → exec (.fanLevelWrite a l) s =
      .next { s with res := packRes .invalidArgument .none 0, done := true })

/-- 30_encoding.md R87: the reserved operation codes, and without the front end the derived ones, complete at once with
`InvalidArgument`, stage 0, data 0, and issue no port operation. -/
def Obligations.ReservedOperationCodesAreRejected : Prop :=
  (∀ (s : State) (a b : Byte), s.step = .idle → s.busy = false →
    exec (.reservedOp5 a b) s = .next { s with res := packRes .invalidArgument .none 0, done := true } ∧
    exec (.reservedOp6 a b) s = .next { s with res := packRes .invalidArgument .none 0, done := true } ∧
    exec (.reservedOp7 a b) s = .next { s with res := packRes .invalidArgument .none 0, done := true } ∧
    (s.cfg.hasFrontEnd = false →
      exec (.fanRpmRead a b) s = .next { s with res := packRes .invalidArgument .none 0, done := true } ∧
      exec (.tempRead a b) s = .next { s with res := packRes .invalidArgument .none 0, done := true } ∧
      exec (.fanLevelWrite a b) s = .next { s with res := packRes .invalidArgument .none 0, done := true })) ∧
  resKind (packRes .invalidArgument .none 0) = 3 ∧ resStage (packRes .invalidArgument .none 0) = 0 ∧
  resData (packRes .invalidArgument .none 0) = 0

/-- 10_state.md R17: while `BUSY` is 1 a request changes nothing, whoever presents it, and what runs next does not depend on
it. The third clause, that a strobe is gone after one step, is how the model loses it: the model's choice of how long
`START` lasts (log entry 3, DESIGN CHOICE). -/
def Obligations.RequestsWhileBusyAreIgnored : Prop :=
  (∀ (s : State) (i : Instr), s.busy = true → i.channel = .req → exec i s = .next s) ∧
  (∀ (s : State) (w : BitVec 19), s.busy = true →
    s.fetch = ({ s with req := w, start := false } : State).fetch) ∧
  (∀ s : State, s.loop = none → s.inputs = [] → s.betweenSteps.start = false)

/-- 10_state.md R22, R14: at `IDLE` with a strobe the engine takes the accept step of the request word; with none,
nothing changes. -/
def Obligations.IdleAcceptsTheStrobedRequest : Prop :=
  ∀ s : State,
    (s.start = false → exec .stepIdle s = .next s) ∧
    (s.start = true → ∃ i, decode s.cfg .req s.req.toNat = .ok i ∧ exec .stepIdle s = exec i s)

/-- 30_encoding.md R88: the ignored request fields have no effect. -/
def Obligations.IgnoredRequestFieldsHaveNoEffect : Prop :=
  ∀ (s : State) (x y a b : Byte),
    exec (.readRegister x a) s = exec (.readRegister x b) s ∧
    exec (.tempRead x a) s = exec (.tempRead x b) s ∧
    exec (.fanRpmRead x a) s = exec (.fanRpmRead y b) s ∧
    exec (.fanLevelWrite a x) s = exec (.fanLevelWrite b x) s

/-! ### The Port Access Layer -/

/-- 40_port_access.md R101, R102: an answered port operation returns the low byte of the bus word, enters the trace once,
leaves nothing outstanding and changes no engine register; deterministic time moves by `PORT_OP_TICKS`. -/
def Obligations.AnsweredPortOperation : Prop :=
  ∀ (s : State) (m : Master) (p : Port) (v : Nat),
    (PortPasses m (readRequest s.cfg p) s → ∃ t,
      s.ioRead m p = (.ok (BitVec.ofNat 8 (s.ecRead p).1), t) ∧ OnlyBusMoved s t ∧ t.outstanding = none ∧
      t.trace = { master := m, dir := .read, port := p, byte := some (BitVec.ofNat 8 (s.ecRead p).1) } :: s.trace ∧
      (s.env.clock = .deterministic → t.now = s.now + s.cfg.portOpTicks) ∧ t.env.ec = (s.ecRead p).2.ec) ∧
    (PortPasses m (writeRequest s.cfg p (BitVec.ofNat 8 v)) s → ∃ t,
      s.ioWrite m p v = (.ok (BitVec.ofNat 8 v), t) ∧ OnlyBusMoved s t ∧ t.outstanding = none ∧
      t.trace = { master := m, dir := .write, port := p, byte := some (BitVec.ofNat 8 v) } :: s.trace ∧
      (s.env.clock = .deterministic → t.now = s.now + s.cfg.portOpTicks) ∧
      t.env.ec = (s.ecWrite p (BitVec.ofNat 8 v)).ec)

/-- 30_encoding.md R85: the PAL masks to 8 bits in both directions, and drives the byte and the port's address
zero-extended to the widths of the bus, which are at least 8. -/
def Obligations.PortsCarryOneByte : Prop :=
  (∀ (s : State) (m : Master) (p : Port) (v : Nat), s.ioWrite m p v = s.ioWrite m p (v % 256)) ∧
  (∀ (s t : State) (m : Master) (p : Port) (v : Nat), s.outstanding = none → s.ioWrite m p v = (.pending, t) →
    ∃ r, t.outstanding = some (m, r) ∧ r.dir = .write ∧ r.port = p ∧ r.wdata = v % 256 ∧
      r.addr = (p.address s.cfg.k).toNat) ∧
  (∀ (s t : State) (m : Master) (p : Port) (b : Byte) (w : Nat) (rest : List Nat), s.env.ecKind = .oracle →
    s.env.answers = w :: rest → s.ioRead m p = (.ok b, t) → b.toNat = w % 256)

/-- 60_exceptions.md R193: an operation the mechanism errors on fails without a value, is in the trace without a byte, and
may or may not have had its effect at the EC; with the mechanism unavailable no request is made and nothing changes. -/
def Obligations.FailedPortOperation : Prop :=
  (∀ (s : State) (m : Master) (p : Port) (v : Nat) (reached : Bool),
    (BusTakes m (readRequest s.cfg p) s → s.mechanism (readRequest s.cfg p) = .fail reached →
      ∃ t, s.ioRead m p = (.error, t) ∧ OnlyBusMoved s t ∧
      t.trace = { master := m, dir := .read, port := p, byte := none } :: s.trace ∧ t.outstanding = none ∧
      t.env.ec = if reached then (s.ecRead p).2.ec else s.env.ec) ∧
    (BusTakes m (writeRequest s.cfg p (BitVec.ofNat 8 v)) s →
      s.mechanism (writeRequest s.cfg p (BitVec.ofNat 8 v)) = .fail reached →
      ∃ t, s.ioWrite m p v = (.error, t) ∧ OnlyBusMoved s t ∧
      t.trace = { master := m, dir := .write, port := p, byte := none } :: s.trace ∧ t.outstanding = none ∧
      t.env.ec = if reached then (s.ecWrite p (BitVec.ofNat 8 v)).ec else s.env.ec)) ∧
  (∀ (s : State) (m : Master) (p : Port) (v : Nat), s.palReady = false → s.outstanding = none →
    s.ioRead m p = (.error, s) ∧ s.ioWrite m p v = (.error, s))

/-- 70_reset_and_hazards.md R240: while a port operation is not answered, for however many steps, the engine stays in its
step, whatever the step, with `BUSY` as it was and no result; no window covers it, and of the environment's events only a
reset ends it. That meanwhile the whole trace, other masters' operations included, and the EC are as before is the
model's deduction from 20_memory.md R51 (log entry 8, DEDUCED). -/
def Obligations.UnansweredPortOperationHoldsTheEngine : Prop :=
  (∀ (s : State) (n : Nat) (rest : List MechOutcome), s.calls = [] → s.step ≠ .idle → s.outstanding = none →
    s.palReady = true → s.env.plan = List.replicate n .hang ++ rest → NoReset s.inputs →
    ∃ u, Sys2Proof.core.run n s = .next u ∧ u.step = s.step ∧ u.fe = s.fe ∧ u.busy = s.busy ∧ u.done = s.done ∧
      u.res = s.res ∧ u.trace = s.trace ∧ u.env.ec = s.env.ec ∧
      (0 < n → ∃ r, u.outstanding = some (.engine, r))) ∧
  (∀ (s : State) (b : Bool), (s.applyEvent (.reset b)).step = .idle ∧ (s.applyEvent (.reset b)).busy = false ∧
    EngineOffBus (s.applyEvent (.reset b)))

/-- The `PORTOP` and `CMD` rows complete and touch nothing but the bus (40_port_access.md R100 to R102; log entry 15). -/
def Obligations.PortPrimitivesComplete : Prop :=
  (∀ x : Byte, PrimitiveSays (.inStatus x) (fun s => readRequest s.cfg .sc) (fun s => BitVec.ofNat 8 (s.ecRead .sc).1)) ∧
  (∀ x : Byte, PrimitiveSays (.inData x) (fun s => readRequest s.cfg .data) (fun s => BitVec.ofNat 8 (s.ecRead .data).1)) ∧
  (∀ c : Byte, PrimitiveSays (.outCmd c) (fun s => writeRequest s.cfg .sc c) (fun _ => c)) ∧
  (∀ b : Byte, PrimitiveSays (.outData b) (fun s => writeRequest s.cfg .data b) (fun _ => b)) ∧
  PrimitiveSays .rdEc (fun s => writeRequest s.cfg .sc s.cfg.k.cmdRead) (fun s => s.cfg.k.cmdRead) ∧
  PrimitiveSays .wrEc (fun s => writeRequest s.cfg .sc s.cfg.k.cmdWrite) (fun s => s.cfg.k.cmdWrite)

/-! ### Polls -/

/-- 41_polling.md R110: one status read, then the flag, then `NOW >= DEADLINE` on the clock after the answer; a
satisfied flag wins over an elapsed window. -/
def Obligations.PollIterationTestsFlagThenWindow : Prop :=
  ∀ (s t : State) (m : Master) (mask : Byte) (want : Bool),
    (∀ b, s.ioRead m .sc = (.ok b, t) →
      (((b &&& mask) ≠ 0 ↔ want = true) → s.pollIteration m mask want = (.satisfied, t)) ∧
      (¬((b &&& mask) ≠ 0 ↔ want = true) → t.now ≥ t.deadline → s.pollIteration m mask want = (.timedOut, t)) ∧
      (¬((b &&& mask) ≠ 0 ↔ want = true) → ¬t.now ≥ t.deadline → s.pollIteration m mask want = (.again, t))) ∧
    (s.ioRead m .sc = (.error, t) → s.pollIteration m mask want = (.portError, t))

/-- The `STATUS` rows complete: one iteration of the poll, its answer recorded, no engine register changed
(41_polling.md R112, R113; log entry 15). -/
def Obligations.PollPrimitivesComplete : Prop :=
  ∀ (s : State) (x b : Byte), PortPasses .other (readRequest s.cfg .sc) s → b = BitVec.ofNat 8 (s.ecRead .sc).1 →
    (∃ t, exec (.waitIbfClear x) s = .next t ∧ OnlyBusMoved s { t with primResult := s.primResult } ∧
      t.trace = { master := .other, dir := .read, port := .sc, byte := some b } :: s.trace ∧
      t.primResult = .poll (if (b &&& s.cfg.ibfMask) = 0 then .satisfied
        else if t.now ≥ t.deadline then .timedOut else .again)) ∧
    (∃ t, exec (.waitObfSet x) s = .next t ∧ OnlyBusMoved s { t with primResult := s.primResult } ∧
      t.trace = { master := .other, dir := .read, port := .sc, byte := some b } :: s.trace ∧
      t.primResult = .poll (if (b &&& s.cfg.obfMask) ≠ 0 then .satisfied
        else if t.now ≥ t.deadline then .timedOut else .again))

/-- 30_encoding.md R71, 93_implementation_defined.md U5: with the default masks, status bits 7..2 decide nothing. -/
def Obligations.UpperStatusBitsDecideNothing : Prop :=
  ∀ (s : State) (m : Master) (w v : Nat) (rest : List Nat), s.env.ecKind = .oracle → s.env.answers = w :: rest →
    s.cfg.ibfMask = 0x02 → s.cfg.obfMask = 0x01 → w % 4 = v % 4 →
    (s.waitIbfClear m).1 = (({ s with env := { s.env with answers := v :: rest } } : State).waitIbfClear m).1 ∧
    (s.waitObfSet m).1 = (({ s with env := { s.env with answers := v :: rest } } : State).waitObfSet m).1

/-- 41_polling.md R114: in the deterministic model a poll that never sees its flag makes exactly
`max(1, ceil(T / c))` status reads, staying at its step until the last, and then ends the operation with its own tag.
That the window's edge is read as R110 decides it, one read for an empty window included, is log entry 27. -/
def Obligations.FailingPollMakesExactlyNReads : Prop :=
  ∀ (s : State) (seen rest : List Nat), OracleBench s → isPollStep s.step = true → 1 ≤ s.cfg.portOpTicks →
    s.deadline = s.now + s.timeout.toNat → s.env.answers = seen ++ rest →
    seen.length = pollReads s.timeout.toNat s.cfg.portOpTicks →
    (∀ w ∈ seen, pollSatisfied s.cfg s.step (BitVec.ofNat 8 w) = false) →
    (∃ t, Sys2Proof.core.run seen.length s = .next t ∧ t.step = .idle ∧ t.fe = .none ∧ t.busy = false ∧
      t.done = true ∧ t.res = packRes .ecTimeout (pollStage s.step) 0 ∧ t.env.answers = rest ∧
      t.trace.length = s.trace.length + seen.length ∧ t.now = s.now + seen.length * s.cfg.portOpTicks) ∧
    (∀ k, k < seen.length → ∃ u, Sys2Proof.core.run k s = .next u ∧ u.step = s.step ∧ u.busy = s.busy ∧
      u.trace.length = s.trace.length + k)

/-! ### The read transaction -/

/-- 42_read_transaction.md R121, R123, R125: the three polls of a read. -/
def Obligations.ReadTransactionPolls : Prop :=
  PollStepSays .stepR1 .r1 .r2 ∧ PollStepSays .stepR3 .r3 .r4 ∧ PollStepSays .stepR5 .r5 .r6

/-- 42_read_transaction.md R122, R124: the two bytes a read sends. -/
def Obligations.ReadTransactionSends : Prop :=
  WriteStepSays .stepR2 .sc (fun s => s.cfg.k.cmdRead) .r3 ∧ WriteStepSays .stepR4 .data (fun s => s.offset) .r5

/-- 42_read_transaction.md R126: the byte is taken whatever its value; there is no poll entry. -/
def Obligations.StepR6TakesTheDataByte : Prop :=
  ∀ s t : State,
    (∀ answer, s.ioRead .engine .data = (answer, t) → OnlyBusMoved s t) ∧
    (∀ b, s.ioRead .engine .data = (.ok b, t) → exec .stepR6 s = .next { t with rdata := b, step := .r7 }) ∧
    (s.ioRead .engine .data = (.error, t) → exec .stepR6 s = .next (endedWith .portAccessError .none 0 t)) ∧
    (s.ioRead .engine .data = (.pending, t) → exec .stepR6 s = .next t)

/-- 42_read_transaction.md R127 with the completions of 44_derived_operations.md R141, R143, R145: the closing status
byte decides nothing; a port error loses the data byte. -/
def Obligations.StepR7ClosesTheRead : Prop :=
  ∀ s t : State,
    (∀ answer, s.ioRead .engine .sc = (answer, t) → OnlyBusMoved s t) ∧
    (∀ b, s.ioRead .engine .sc = (.ok b, t) →
      (s.fe = .rawRd → exec .stepR7 s = .next (endedWith .ok .none (BitVec.ofNat 16 s.rdata.toNat) t)) ∧
      (s.fe = .rpmLsb → exec .stepR7 s =
        .next { t with lsb := s.rdata, offset := s.cfg.k.regRpmMsb, fe := .rpmMsb, step := .r1,
                       deadline := t.now + t.timeout.toNat }) ∧
      (s.fe = .rpmMsb → exec .stepR7 s =
        .next (endedWith .ok .none
          (if s.rdata.toNat * 256 + s.lsb.toNat = s.cfg.k.rpmAbsent.toNat then 0
           else BitVec.ofNat 16 (s.rdata.toNat * 256 + s.lsb.toNat)) t)) ∧
      (s.fe = .temp → s.rdata = s.cfg.k.tempAbsent → exec .stepR7 s = .next (endedWith .sensorUnavailable .none 0 t)) ∧
      (s.fe = .temp → s.rdata ≠ s.cfg.k.tempAbsent → exec .stepR7 s =
        .next (endedWith .ok .none (BitVec.ofInt 16 s.rdata.toInt) t))) ∧
    (s.ioRead .engine .sc = (.error, t) → exec .stepR7 s = .next (endedWith .portAccessError .none 0 t)) ∧
    (s.ioRead .engine .sc = (.pending, t) → exec .stepR7 s = .next t)

/-! ### The write transaction -/

/-- 43_write_transaction.md R131, R133, R135: the first three polls of a write. -/
def Obligations.WriteTransactionPolls : Prop :=
  PollStepSays .stepW1 .w1 .w2 ∧ PollStepSays .stepW3 .w3 .w4 ∧ PollStepSays .stepW5 .w5 .w6

/-- 43_write_transaction.md R132, R134, R136: the three bytes a write sends. -/
def Obligations.WriteTransactionSends : Prop :=
  WriteStepSays .stepW2 .sc (fun s => s.cfg.k.cmdWrite) .w3 ∧ WriteStepSays .stepW4 .data (fun s => s.offset) .w5 ∧
  WriteStepSays .stepW6 .data (fun s => s.wdata) .w7

/-- 43_write_transaction.md R137: satisfied, a write or a level write ends with `Ok`, data 0. -/
def Obligations.StepW7ConfirmsTheWrite : Prop :=
  ∀ s t : State,
    (∀ answer, s.ioRead .engine .sc = (answer, t) → OnlyBusMoved s t) ∧
    (∀ b, s.ioRead .engine .sc = (.ok b, t) →
      (ibfFlag s.cfg b = false → s.fe = .rawWr ∨ s.fe = .level →
        exec .stepW7 s = .next (endedWith .ok .none 0 t)) ∧
      (ibfFlag s.cfg b = true → t.now < t.deadline → exec .stepW7 s = .next t) ∧
      (ibfFlag s.cfg b = true → t.deadline ≤ t.now →
        exec .stepW7 s = .next (endedWith .ecTimeout .ibfAfterData 0 t))) ∧
    (s.ioRead .engine .sc = (.error, t) → exec .stepW7 s = .next (endedWith .portAccessError .none 0 t)) ∧
    (s.ioRead .engine .sc = (.pending, t) → exec .stepW7 s = .next t)

/-! ### Results -/

/-- 30_encoding.md R76, R77, R80: the fields of every result word the engine can write. -/
def Obligations.ResultFieldsReadBack : Prop :=
  ∀ (k : ResKind) (g : Stage) (d : Half),
    resKind (packRes k g d) = kindCode k ∧ resStage (packRes k g d) = stageCode g ∧
    resData (packRes k g d) = d ∧ kindOfCode (kindCode k) = some k

/-- 30_encoding.md R82, R83: the RPM and temperature values, as numbers. -/
def Obligations.RpmAndTemperatureValues : Prop :=
  (∀ msb lsb : Byte, (rpmValue Constants.source msb lsb).toNat =
    if msb.toNat * 256 + lsb.toNat = 0xFFFF then 0 else msb.toNat * 256 + lsb.toNat) ∧
  (∀ b : Byte, (sext16 b).toInt = if b.toNat < 128 then (b.toNat : Int) else (b.toNat : Int) - 256)

/-! ### Whole operations on the bench -/

/-- `READ_REGISTER o` from the strobe to the result in its shortest form: accept and seven port operations
(44_derived_operations.md R141, 42_read_transaction.md R128). -/
def Obligations.ReadRegisterWholeOperation : Prop :=
  ∀ (s : State) (o x : Byte) (s1 s2 s3 d s4 : Nat) (rest : List Nat), OracleBench s → s.cfg.k = Constants.source →
    Requested (reqOf s.cfg (.readRegister o x)) s → s.env.answers = s1 :: s2 :: s3 :: d :: s4 :: rest →
    ibfFlag s.cfg (BitVec.ofNat 8 s1) = false → ibfFlag s.cfg (BitVec.ofNat 8 s2) = false →
    obfFlag s.cfg (BitVec.ofNat 8 s3) = true →
    ∃ t, Sys2Proof.core.run 8 s = .next t ∧ t.step = .idle ∧ t.busy = false ∧ t.done = true ∧
      t.res = packRes .ok .none (BitVec.ofNat 16 (d % 256)) ∧ t.env.answers = rest ∧
      t.now = s.now + 7 * s.cfg.portOpTicks ∧
      t.trace = readTrace o (BitVec.ofNat 8 s1) (BitVec.ofNat 8 s2) (BitVec.ofNat 8 s3) (BitVec.ofNat 8 d)
        (BitVec.ofNat 8 s4) ++ s.trace

/-- `WRITE_REGISTER o, v` and `FAN_LEVEL_WRITE l` whole (44_derived_operations.md R142, R147,
43_write_transaction.md R138). -/
def Obligations.WriteOperationsWhole : Prop :=
  ∀ (s : State) (o v x l : Byte) (s1 s2 s3 s4 : Nat) (rest : List Nat), OracleBench s → s.cfg.k = Constants.source →
    s.env.answers = s1 :: s2 :: s3 :: s4 :: rest →
    ibfFlag s.cfg (BitVec.ofNat 8 s1) = false → ibfFlag s.cfg (BitVec.ofNat 8 s2) = false →
    ibfFlag s.cfg (BitVec.ofNat 8 s3) = false → ibfFlag s.cfg (BitVec.ofNat 8 s4) = false →
    (Requested (reqOf s.cfg (.writeRegister o v)) s →
      ∃ t, Sys2Proof.core.run 8 s = .next t ∧ t.step = .idle ∧ t.busy = false ∧ t.done = true ∧
        t.res = packRes .ok .none 0 ∧ t.env.answers = rest ∧ t.now = s.now + 7 * s.cfg.portOpTicks ∧
        t.trace = writeTrace o v (BitVec.ofNat 8 s1) (BitVec.ofNat 8 s2) (BitVec.ofNat 8 s3) (BitVec.ofNat 8 s4) ++
          s.trace) ∧
    (Requested (reqOf s.cfg (.fanLevelWrite x l)) s → s.cfg.hasFrontEnd = true →
      l.toNat ∈ [0, 1, 2, 3, 4, 5, 6, 7, 0x40, 0x80] →
      ∃ t, Sys2Proof.core.run 8 s = .next t ∧ t.step = .idle ∧ t.busy = false ∧ t.done = true ∧
        t.res = packRes .ok .none 0 ∧ t.env.answers = rest ∧ t.now = s.now + 7 * s.cfg.portOpTicks ∧
        t.trace = writeTrace 0x2F l (BitVec.ofNat 8 s1) (BitVec.ofNat 8 s2) (BitVec.ofNat 8 s3)
          (BitVec.ofNat 8 s4) ++ s.trace)

/-- `TEMP_READ i` whole (44_derived_operations.md R145): the sentinel 0x80 is `SensorUnavailable`, every other byte a
signed temperature. -/
def Obligations.TempReadWholeOperation : Prop :=
  ∀ (s : State) (i x : Byte) (s1 s2 s3 d s4 : Nat) (rest : List Nat), OracleBench s → s.cfg.k = Constants.source →
    Requested (reqOf s.cfg (.tempRead i x)) s → s.cfg.hasFrontEnd = true → i.toNat ≤ 7 →
    s.env.answers = s1 :: s2 :: s3 :: d :: s4 :: rest →
    ibfFlag s.cfg (BitVec.ofNat 8 s1) = false → ibfFlag s.cfg (BitVec.ofNat 8 s2) = false →
    obfFlag s.cfg (BitVec.ofNat 8 s3) = true →
    ∃ t, Sys2Proof.core.run 8 s = .next t ∧ t.step = .idle ∧ t.busy = false ∧ t.done = true ∧
      (d % 256 = 0x80 → t.res = packRes .sensorUnavailable .none 0) ∧
      (d % 256 ≠ 0x80 → resKind t.res = 0 ∧ resStage t.res = 0 ∧
        (resData t.res).toInt = if d % 256 < 128 then ((d % 256 : Nat) : Int) else ((d % 256 : Nat) : Int) - 256) ∧
      t.trace = readTrace (BitVec.ofNat 8 (0x78 + i.toNat)) (BitVec.ofNat 8 s1) (BitVec.ofNat 8 s2)
        (BitVec.ofNat 8 s3) (BitVec.ofNat 8 d) (BitVec.ofNat 8 s4) ++ s.trace

/-- `FAN_RPM_READ` whole (44_derived_operations.md R143, 70_reset_and_hazards.md R233): offset 0x84 before 0x85 in one
busy period, `msb * 256 + lsb`, 0xFFFF reported as 0. -/
def Obligations.FanRpmReadWholeOperation : Prop :=
  ∀ (s : State) (x y : Byte) (s1 s2 s3 lo s4 s5 s6 s7 hi s8 : Nat) (rest : List Nat), OracleBench s →
    s.cfg.k = Constants.source →
    Requested (reqOf s.cfg (.fanRpmRead x y)) s → s.cfg.hasFrontEnd = true →
    s.env.answers = s1 :: s2 :: s3 :: lo :: s4 :: s5 :: s6 :: s7 :: hi :: s8 :: rest →
    ibfFlag s.cfg (BitVec.ofNat 8 s1) = false → ibfFlag s.cfg (BitVec.ofNat 8 s2) = false →
    obfFlag s.cfg (BitVec.ofNat 8 s3) = true →
    ibfFlag s.cfg (BitVec.ofNat 8 s5) = false → ibfFlag s.cfg (BitVec.ofNat 8 s6) = false →
    obfFlag s.cfg (BitVec.ofNat 8 s7) = true →
    (∃ u, Sys2Proof.core.run 8 s = .next u ∧ u.busy = true ∧ u.done = false) ∧
    ∃ t, Sys2Proof.core.run 15 s = .next t ∧ t.step = .idle ∧ t.busy = false ∧ t.done = true ∧
      resKind t.res = 0 ∧ resStage t.res = 0 ∧
      (resData t.res).toNat =
        (if (hi % 256) * 256 + lo % 256 = 0xFFFF then 0 else (hi % 256) * 256 + lo % 256) ∧
      t.trace = readTrace 0x85 (BitVec.ofNat 8 s5) (BitVec.ofNat 8 s6) (BitVec.ofNat 8 s7) (BitVec.ofNat 8 hi)
          (BitVec.ofNat 8 s8) ++
        readTrace 0x84 (BitVec.ofNat 8 s1) (BitVec.ofNat 8 s2) (BitVec.ofNat 8 s3) (BitVec.ofNat 8 lo)
          (BitVec.ofNat 8 s4) ++ s.trace

/-- 20_memory.md R65: with an Ideal or Slow(n) reference EC, `n` less than the reads a window allows, a write of any
byte to any offset completes `Ok`, leaves the byte there, and a following read of the offset completes `Ok` with it, each
after at least the seven port operations of its transaction. -/
def Obligations.WriteThenReadReturnsTheByte : Prop :=
  ∀ (s : State) (n : Nat) (o v x : Byte), CleanReferenceBench s → s.cfg.wf = true →
    s.env.ec.lat = Latency.slow n → Memory.wf s.env.ec.regs = true →
    n < pollReads s.timeout.toNat s.cfg.portOpTicks → Requested (reqOf s.cfg (.writeRegister o v)) s →
    ∃ k t, 0 < k ∧ Sys2Proof.core.run k s = .next t ∧ s.trace.length + 7 ≤ t.trace.length ∧
      t.busy = false ∧ t.done = true ∧ t.res = packRes .ok .none 0 ∧
      Memory.read t.env.ec.regs o.toNat = v ∧ t.env.ec.violation = false ∧
      ∃ k' t', 0 < k' ∧ Sys2Proof.core.run k' (t.submit (.readRegister o x)) = .next t' ∧
        t.trace.length + 7 ≤ t'.trace.length ∧ t'.busy = false ∧ t'.done = true ∧
        t'.res = packRes .ok .none (BitVec.ofNat 16 v.toNat) ∧ t'.env.ec.violation = false

/-! ### Invariants -/

/-- The reset state is consistent, exclusive, and has kept the handshake. -/
def Obligations.ResetStateMeetsTheInvariants : Prop :=
  Consistent State.reset ∧ ExclusivePorts State.reset ∧ CallsDecode State.reset ∧ Handshake State.reset ∧
  State.reset.trace.all (commandKnown State.reset.cfg.k) = true ∧ Memory.wf State.reset.env.ec.regs = true

/-- 10_state.md R15, R17 to R19, R22, 30_encoding.md R89: every step keeps the engine's registers in agreement, whoever
else drives the ports. -/
def Obligations.StepKeepsTheEngineConsistent : Prop :=
  ∀ s t : State, Consistent s → step s = .next t → Consistent t

/-- 20_memory.md R53, 70_reset_and_hazards.md R230 to R232: every step from a state with exclusive ports (no other master
while `BUSY` is 1) keeps the handshake rule: IBF seen clear immediately before every byte the engine sends, OBF seen set
immediately before every data byte it takes. -/
def Obligations.StepKeepsTheHandshake : Prop :=
  ∀ s t : State, ExclusivePorts s → Consistent s → Handshake s → step s = .next t → Handshake t

/-- 30_encoding.md R72: the engine writes no byte but `CMD_READ` and `CMD_WRITE` to the command port. -/
def Obligations.StepKeepsCommandBytesKnown : Prop :=
  ∀ s t : State, s.trace.all (commandKnown s.cfg.k) = true → step s = .next t →
    t.trace.all (commandKnown s.cfg.k) = true

/-- EC register space stays in its canonical form, whoever drives the ports (log entry 18). -/
def Obligations.StepKeepsEcRegistersCanonical : Prop :=
  ∀ s t : State, Memory.wf s.env.ec.regs = true → step s = .next t → Memory.wf t.env.ec.regs = true

/-- From a consistent state, where every call of another port master is a row of the table, the machine does not stop: the
step answers a next state. -/
def Obligations.ConsistentMachineNeverStops : Prop :=
  ∀ s : State, Consistent s → CallsDecode s → ∃ t, step s = .next t

/-- STEP_R7 and STEP_W7 complete only for an operation of their transaction; otherwise they stop by name (log entry 13). -/
def Obligations.CompletionWithoutAnOperationStops : Prop :=
  ∀ (s t : State) (b : Byte), s.ioRead .engine .sc = (.ok b, t) →
    (s.fe = .none ∨ s.fe = .rawWr ∨ s.fe = .level → exec .stepR7 s = .fault .noCompletionRule) ∧
    (ibfFlag s.cfg b = false → s.fe = .none ∨ s.fe = .rawRd ∨ s.fe = .rpmLsb ∨ s.fe = .rpmMsb ∨ s.fe = .temp →
      exec .stepW7 s = .fault .noCompletionRule)

/-! ### Whole-machine rules and frames -/

/-- 10_state.md R14: the engine moves `STEP` only along the table's edges, and stays only at `IDLE`, in a poll, or while a
port operation is unanswered; what another port master runs does not move it. -/
def Obligations.StepRegisterMovesAsTheTableSays : Prop :=
  ∀ (s t : State) (i : Instr), s.fetch = .ok i → exec i s = .next t →
    (ownChannel i.channel = true → stepEdge s.step t.step = true ∨
      (t.step = s.step ∧ (s.step = .idle ∨ isPollStep s.step = true ∨ t.outstanding.isSome = true))) ∧
    (ownChannel i.channel = false → t.step = s.step)

/-- 10_state.md R12, R16, R20, R21, R29: no instruction writes `TIMEOUT`, the inputs, the parameters or the host. -/
def Obligations.InstructionsLeaveHostAndInputsAlone : Prop :=
  ∀ (i : Instr) (s t : State), exec i s = .next t →
    t.timeout = s.timeout ∧ t.req = s.req ∧ t.start = s.start ∧ t.palReady = s.palReady ∧ t.cfg = s.cfg ∧
    t.inputs = s.inputs ∧ t.loop = s.loop ∧ t.calls = s.calls

/-- 10_state.md R11: who writes the data registers. -/
def Obligations.DataRegistersAreWrittenOnlyByTheirSteps : Prop :=
  ∀ (i : Instr) (s t : State), exec i s = .next t →
    (t.offset ≠ s.offset → i.channel = .req ∨ i = .stepIdle ∨ (i = .stepR7 ∧ s.fe = .rpmLsb)) ∧
    (t.wdata ≠ s.wdata → i.channel = .req ∨ i = .stepIdle) ∧
    (t.rdata ≠ s.rdata → i = .stepR6) ∧
    (t.lsb ≠ s.lsb → i = .stepR7 ∧ s.fe = .rpmLsb)

/-- 10_state.md R18, R19, 60_exceptions.md R190: a result is written only by the step that ends an operation, which
leaves the engine idle with `DONE` set. -/
def Obligations.ResultsAreWrittenOnlyOnCompletion : Prop :=
  ∀ (i : Instr) (s t : State), exec i s = .next t → t.res ≠ s.res →
    t.done = true ∧ t.busy = false ∧ t.step = .idle

/-- 10_state.md R25: `NOW` never decreases. -/
def Obligations.NowNeverDecreases : Prop :=
  ∀ s t : State, step s = .next t → s.now ≤ t.now

/-- 10_state.md R22, 20_memory.md R52: a step makes at most one port operation, and none when the engine is idle. -/
def Obligations.AtMostOnePortOperationPerStep : Prop :=
  (∀ s t : State, step s = .next t → t.trace = s.trace ∨ ∃ e, t.trace = e :: s.trace) ∧
  (∀ s t : State, s.calls = [] → s.step = .idle → step s = .next t → t.trace = s.trace)

/-- 20_memory.md R62, R63: an EC register changes only when a status read lets the reference EC consume the value byte of
a write, and then exactly the addressed one takes that byte. -/
def Obligations.EcRegisterStoreAndFrame : Prop :=
  (∀ (i : Instr) (s t : State) (o : Nat), exec i s = .next t →
    (∀ b, ¬(s.env.ec.ibf = true ∧ s.env.ec.delay = some 0 ∧ s.env.ec.pend = some (.data b) ∧
      s.env.ec.phase = .wrData ∧ s.env.ec.addr.toNat = o)) →
    Memory.read t.env.ec.regs o = Memory.read s.env.ec.regs o) ∧
  (∀ (s : State) (m : Master) (b : Byte), PortPasses m (readRequest s.cfg .sc) s → s.env.ecKind = .reference →
    s.env.ec.stuck0 = false → s.env.ec.ibf = true → s.env.ec.delay = some 0 → s.env.ec.pend = some (.data b) →
    s.env.ec.phase = .wrData → Memory.wf s.env.ec.regs = true →
    Memory.read (s.ioRead m .sc).2.env.ec.regs s.env.ec.addr.toNat = b ∧ (s.ioRead m .sc).2.env.ec.ibf = false)

/-- 20_memory.md R62, R66: what a host write does to the reference EC. -/
def Obligations.ReferenceEcTakesAHostWrite : Prop :=
  ∀ (e : RefEc) (p : Port) (b : Byte),
    (e.ioWrite p b).pend = some (match p with | .sc => .cmd b | .data => .data b) ∧
    (e.ioWrite p b).ibf = true ∧ (e.ioWrite p b).nwrites = e.nwrites + 1 ∧
    (e.ioWrite p b).delay = e.lat.at (e.nwrites + 1) ∧
    ((e.ioWrite p b).violation = true ↔ e.violation = true ∨ e.ibf = true) ∧
    (e.ioWrite p b).regs = e.regs ∧ (e.ioWrite p b).obf = e.obf ∧ (e.ioWrite p b).phase = e.phase

/-! ### The host's side -/

/-- 70_reset_and_hazards.md R237: a write of `TIMEOUT` changes that register and nothing else, so a running poll keeps its
deadline and its outcome; the next poll entry uses the new value. -/
def Obligations.TimeoutWriteChangesOnlyTimeout : Prop :=
  ∀ (s : State) (m : Master) (v : BitVec 32) (mask : Byte) (want : Bool) (st : Step),
    s.applyEvent (.writeTimeout v) = { s with timeout := v } ∧ (s.applyEvent (.writeTimeout v)).readTimeout = v ∧
    ((s.applyEvent (.writeTimeout v)).pollIteration m mask want).1 = (s.pollIteration m mask want).1 ∧
    ((s.applyEvent (.writeTimeout v)).pollIteration m mask want).2.deadline = (s.pollIteration m mask want).2.deadline ∧
    ((s.applyEvent (.writeTimeout v)).enterPoll st).deadline = s.now + v.toNat

/-- 45_consumers.md R161: `LEVEL_AUTO` for an absent reading; else the level of the highest threshold at or below it, where one
pair has that threshold. -/
def Obligations.CurveGivesTheHighestThresholdsLevel : Prop :=
  (∀ (k : Constants) (curve : Curve), curveLevel k curve none = k.levelAuto) ∧
  (∀ (k : Constants) (curve : Curve) (reading θ : Int) (l : Byte), (θ, l) ∈ curve → θ ≤ reading →
    (∀ p ∈ curve, p.1 ≤ reading → p.1 < θ ∨ p = (θ, l)) → curveLevel k curve (some reading) = l)

/-- 45_consumers.md section 3, with the timer and the stop signal as the model's events (log entry 22): a cycle starts with
`TEMP_READ`, or after a stop signal with the write of AUTO; the level of the curve is written exactly if it differs from the
one last written successfully; a cycle whose reading failed writes nothing. -/
def Obligations.ControlLoopWritesOnlyOnChange : Prop :=
  ∀ (s : State) (l : ControlLoop), s.loop = some l → s.busy = false → s.start = false →
    (l.phase = .waiting → l.stop = false → s.loopTimer.start = true ∧
      s.loopTimer.req = reqOf s.cfg (.tempRead l.config.sensor 0)) ∧
    (l.phase = .waiting → l.stop = true → s.loopTimer.start = true ∧
      s.loopTimer.req = reqOf s.cfg (.fanLevelWrite 0 s.cfg.k.levelAuto)) ∧
    (∀ reading, l.phase = .reading → s.done = true → tempReading s.res = some reading →
      (l.lastLevel = some (curveLevel s.cfg.k l.config.curve reading) → s.loopReact.start = false) ∧
      (l.lastLevel ≠ some (curveLevel s.cfg.k l.config.curve reading) → s.loopReact.start = true ∧
        s.loopReact.req = reqOf s.cfg (.fanLevelWrite 0 (curveLevel s.cfg.k l.config.curve reading)))) ∧
    (l.phase = .reading → s.done = true → tempReading s.res = none →
      s.loopReact = { s with loop := some { l with phase := .waiting } }) ∧
    (∀ level, l.phase = .writing level → s.done = true →
      s.loopReact = { s with loop := some { l with
        phase := .waiting
        lastLevel := if resKind s.res = 0 then some level else l.lastLevel } })

/-! ### The bus, the progress of time, and the events between two steps -/

/-- One port operation is on the bus at a time (20_memory.md R51: a port operation is indivisible; R52: the engine's own
are in order). That any other, of the engine or of another master, waits meanwhile and changes nothing, and that a step
makes no port operation of another master while the engine's own is not answered, is the model's deduction from R51
(log entry 8, DEDUCED). -/
def Obligations.OnePortOperationOnTheBus : Prop :=
  (∀ (s : State) (m : Master) (r : PortRequest) (q : Master × PortRequest), s.outstanding = some q → q ≠ (m, r) →
    s.portOp m r = (.pending, s)) ∧
  (∀ (s t : State) (q : PortRequest), s.busy = true → s.outstanding = some (.engine, q) → step s = .next t →
    t.trace = s.trace ∨ ∃ e, t.trace = e :: s.trace ∧ e.master = .engine)

/-- 60_exceptions.md R202: in an infinite run of a consistent engine with exclusive ports, a fair clock and every port
operation answered, every poll ends and every operation ends; and deterministic time is fair by construction. -/
def Obligations.EveryPollAndOperationEndsUnderAFairClock : Prop :=
  (∀ r : Nat → State, IsRun r → Consistent (r 0) → (∀ n, ExclusivePorts (r n)) → ClockFair r → PortOpsAnswered r →
    ∀ n, (isPollStep (r n).step = true → ∃ m, n ≤ m ∧ (r m).step ≠ (r n).step) ∧
      ((r n).busy = true → ∃ m, n ≤ m ∧ (r m).busy = false)) ∧
  (∀ r : Nat → State, IsRun r → (r 0).env.clock = .deterministic → 1 ≤ (r 0).cfg.portOpTicks → ClockFair r)

/-- 41_polling.md R119, 10_state.md R12: no event between two steps but a reset touches the operation in progress, however
many there are: the engine's registers, its deadline and the bus are as they were. -/
def Obligations.OnlyResetTouchesTheOperationInProgress : Prop :=
  ∀ s : State, (∀ batch rest, s.inputs = batch :: rest → NoReset [batch]) →
    s.betweenSteps.step = s.step ∧ s.betweenSteps.fe = s.fe ∧ s.betweenSteps.busy = s.busy ∧
    s.betweenSteps.done = s.done ∧ s.betweenSteps.res = s.res ∧ s.betweenSteps.offset = s.offset ∧
    s.betweenSteps.wdata = s.wdata ∧ s.betweenSteps.rdata = s.rdata ∧ s.betweenSteps.lsb = s.lsb ∧
    s.betweenSteps.deadline = s.deadline ∧ s.betweenSteps.outstanding = s.outstanding ∧
    s.betweenSteps.trace = s.trace ∧ s.betweenSteps.env.ec = s.env.ec ∧ s.betweenSteps.cfg = s.cfg

/-- 45_consumers.md R163, R167, with start-up as the model's event and the handle as `PAL_READY` (log entry 22): start-up
acquires the access handle or leaves no loop; the handle is released after the write of AUTO has ended; the loop's
request is accepted by the next step whoever else asks for the ports; a reset that takes its operation leaves it waiting
for its timer, whoever strobes a request (the model's choice, log entry 22); and every step, resets and other hosts'
requests included, keeps it so that a loop that waits for a result waits for its own operation. -/
def Obligations.ControlLoopHoldsTheHandleAndItsRequest : Prop :=
  (∀ (s : State) (c : LoopConfig), s.loop = none →
    (s.loopStart c true).palReady = true ∧
    (∃ level, (s.loopStart c true).loop = some (ControlLoop.begun c level)) ∧ s.loopStart c false = s) ∧
  (∀ (s : State) (l : ControlLoop), s.loop = some l → l.phase = .restoring → s.busy = false → s.done = true →
    s.start = false → s.loopReact = { s with loop := some { l with phase := .stopped }, palReady := false }) ∧
  (∀ (s : State) (l : ControlLoop) (req : BitVec 19) (start : Bool), s.loop = some l → l.strobes = true →
    s.applyEvent (.request req start) = s ∧
    (s.start = true → s.step = .idle → s.busy = false → s.fetch = decode s.cfg .req s.req.toNat)) ∧
  (∀ (s : State) (l : ControlLoop) (b : Bool), s.loop = some l → l.strobes = false → l.phase ≠ .stopped →
    (s.applyEvent (.reset b)).loop = some { l with phase := .waiting } ∧
    (s.applyEvent (.reset b)).palReady = s.palReady) ∧
  LoopFits State.reset ∧
  (∀ s t : State, Consistent s → LoopFits s → step s = .next t → LoopFits t)
end

