-- ==== Sys2Proof/Laws/Decode.lean ====
section
/-! SUPPORT. The decoder, channel by channel, and the fields of the words the encoder builds. -/

namespace Sys2Proof

theorem decode_req {p : Params} {w : Nat} (h : w < 2 ^ 19) : decode p .req w = decodeReq w := by
  have h' : ¬2 ^ Channel.req.width ≤ w := Nat.not_le.mpr h
  unfold decode; rw [if_neg h']

theorem decode_cmd {p : Params} {w : Nat} (h : w < 2 ^ 8) : decode p .cmd w = decodeCmd p w := by
  have h' : ¬2 ^ Channel.cmd.width ≤ w := Nat.not_le.mpr h
  unfold decode; rw [if_neg h']

theorem decode_portop {p : Params} {w : Nat} (h : w < 2 ^ 17) : decode p .portop w = decodePortop p w := by
  have h' : ¬2 ^ Channel.portop.width ≤ w := Nat.not_le.mpr h
  unfold decode; rw [if_neg h']

theorem decode_pollIbf {p : Params} {w : Nat} (h : w < 2 ^ 8) : decode p .pollIbf w = decodePollIbf p w := by
  have h' : ¬2 ^ Channel.pollIbf.width ≤ w := Nat.not_le.mpr h
  unfold decode; rw [if_neg h']

theorem decode_pollObf {p : Params} {w : Nat} (h : w < 2 ^ 8) : decode p .pollObf w = decodePollObf p w := by
  have h' : ¬2 ^ Channel.pollObf.width ≤ w := Nat.not_le.mpr h
  unfold decode; rw [if_neg h']

theorem decode_step {p : Params} {w : Nat} (h : w < 2 ^ 4) : decode p .step w = decodeStep w := by
  have h' : ¬2 ^ Channel.step.width ≤ w := Nat.not_le.mpr h
  unfold decode; rw [if_neg h']

/-- What decodes fits its channel. -/
theorem decode_lt {p : Params} {ch : Channel} {w : Nat} {i : Instr} (h : decode p ch w = .ok i) : w < 2 ^ ch.width := by
  by_contra hw
  unfold decode at h
  rw [if_pos (Nat.not_lt.mp hw)] at h
  cases h

theorem byteOf_reqWord (op : Nat) (a b : Byte) :
    byteOf (reqWord op a b) 1 = a ∧ byteOf (reqWord op a b) 0 = b ∧ reqWord op a b / 2 ^ 16 = op := by
  have ha := a.isLt
  have hb := b.isLt
  refine ⟨?_, ?_, ?_⟩
  · apply BitVec.eq_of_toNat_eq; simp [byteOf, reqWord]; omega
  · apply BitVec.eq_of_toNat_eq; simp [byteOf, reqWord]; omega
  · unfold reqWord; omega

end Sys2Proof
end

