-- ==== Sys2Proof/Laws/State.lean ====
section
/-! SUPPORT. One lemma per field per update of State, so that no proof unfolds a record update. -/

namespace Sys2Proof.Machine

@[simp] theorem State.complete_offset (s : State) (kind : ResKind) (stage : Stage) (data : Half) : (s.complete kind stage data).offset = s.offset := rfl
@[simp] theorem State.complete_wdata (s : State) (kind : ResKind) (stage : Stage) (data : Half) : (s.complete kind stage data).wdata = s.wdata := rfl
@[simp] theorem State.complete_rdata (s : State) (kind : ResKind) (stage : Stage) (data : Half) : (s.complete kind stage data).rdata = s.rdata := rfl
@[simp] theorem State.complete_lsb (s : State) (kind : ResKind) (stage : Stage) (data : Half) : (s.complete kind stage data).lsb = s.lsb := rfl
@[simp] theorem State.complete_step (s : State) (kind : ResKind) (stage : Stage) (data : Half) : (s.complete kind stage data).step = .idle := rfl
@[simp] theorem State.complete_fe (s : State) (kind : ResKind) (stage : Stage) (data : Half) : (s.complete kind stage data).fe = .none := rfl
@[simp] theorem State.complete_busy (s : State) (kind : ResKind) (stage : Stage) (data : Half) : (s.complete kind stage data).busy = false := rfl
@[simp] theorem State.complete_done (s : State) (kind : ResKind) (stage : Stage) (data : Half) : (s.complete kind stage data).done = true := rfl
@[simp] theorem State.complete_res (s : State) (kind : ResKind) (stage : Stage) (data : Half) : (s.complete kind stage data).res = packRes kind stage data := rfl
@[simp] theorem State.complete_timeout (s : State) (kind : ResKind) (stage : Stage) (data : Half) : (s.complete kind stage data).timeout = s.timeout := rfl
@[simp] theorem State.complete_deadline (s : State) (kind : ResKind) (stage : Stage) (data : Half) : (s.complete kind stage data).deadline = s.deadline := rfl
@[simp] theorem State.complete_outstanding (s : State) (kind : ResKind) (stage : Stage) (data : Half) : (s.complete kind stage data).outstanding = s.outstanding := rfl
@[simp] theorem State.complete_req (s : State) (kind : ResKind) (stage : Stage) (data : Half) : (s.complete kind stage data).req = s.req := rfl
@[simp] theorem State.complete_start (s : State) (kind : ResKind) (stage : Stage) (data : Half) : (s.complete kind stage data).start = s.start := rfl
@[simp] theorem State.complete_palReady (s : State) (kind : ResKind) (stage : Stage) (data : Half) : (s.complete kind stage data).palReady = s.palReady := rfl
@[simp] theorem State.complete_now (s : State) (kind : ResKind) (stage : Stage) (data : Half) : (s.complete kind stage data).now = s.now := rfl
@[simp] theorem State.complete_env (s : State) (kind : ResKind) (stage : Stage) (data : Half) : (s.complete kind stage data).env = s.env := rfl
@[simp] theorem State.complete_loop (s : State) (kind : ResKind) (stage : Stage) (data : Half) : (s.complete kind stage data).loop = s.loop := rfl
@[simp] theorem State.complete_inputs (s : State) (kind : ResKind) (stage : Stage) (data : Half) : (s.complete kind stage data).inputs = s.inputs := rfl
@[simp] theorem State.complete_cfg (s : State) (kind : ResKind) (stage : Stage) (data : Half) : (s.complete kind stage data).cfg = s.cfg := rfl
@[simp] theorem State.complete_trace (s : State) (kind : ResKind) (stage : Stage) (data : Half) : (s.complete kind stage data).trace = s.trace := rfl
@[simp] theorem State.complete_calls (s : State) (kind : ResKind) (stage : Stage) (data : Half) : (s.complete kind stage data).calls = s.calls := rfl
@[simp] theorem State.complete_primResult (s : State) (kind : ResKind) (stage : Stage) (data : Half) : (s.complete kind stage data).primResult = s.primResult := rfl

@[simp] theorem State.failWith_offset (s : State) (kind : ResKind) (stage : Stage) : (s.failWith kind stage).offset = s.offset := rfl
@[simp] theorem State.failWith_wdata (s : State) (kind : ResKind) (stage : Stage) : (s.failWith kind stage).wdata = s.wdata := rfl
@[simp] theorem State.failWith_rdata (s : State) (kind : ResKind) (stage : Stage) : (s.failWith kind stage).rdata = s.rdata := rfl
@[simp] theorem State.failWith_lsb (s : State) (kind : ResKind) (stage : Stage) : (s.failWith kind stage).lsb = s.lsb := rfl
@[simp] theorem State.failWith_step (s : State) (kind : ResKind) (stage : Stage) : (s.failWith kind stage).step = .idle := rfl
@[simp] theorem State.failWith_fe (s : State) (kind : ResKind) (stage : Stage) : (s.failWith kind stage).fe = .none := rfl
@[simp] theorem State.failWith_busy (s : State) (kind : ResKind) (stage : Stage) : (s.failWith kind stage).busy = false := rfl
@[simp] theorem State.failWith_done (s : State) (kind : ResKind) (stage : Stage) : (s.failWith kind stage).done = true := rfl
@[simp] theorem State.failWith_res (s : State) (kind : ResKind) (stage : Stage) : (s.failWith kind stage).res = packRes kind stage 0 := rfl
@[simp] theorem State.failWith_timeout (s : State) (kind : ResKind) (stage : Stage) : (s.failWith kind stage).timeout = s.timeout := rfl
@[simp] theorem State.failWith_deadline (s : State) (kind : ResKind) (stage : Stage) : (s.failWith kind stage).deadline = s.deadline := rfl
@[simp] theorem State.failWith_outstanding (s : State) (kind : ResKind) (stage : Stage) : (s.failWith kind stage).outstanding = s.outstanding := rfl
@[simp] theorem State.failWith_req (s : State) (kind : ResKind) (stage : Stage) : (s.failWith kind stage).req = s.req := rfl
@[simp] theorem State.failWith_start (s : State) (kind : ResKind) (stage : Stage) : (s.failWith kind stage).start = s.start := rfl
@[simp] theorem State.failWith_palReady (s : State) (kind : ResKind) (stage : Stage) : (s.failWith kind stage).palReady = s.palReady := rfl
@[simp] theorem State.failWith_now (s : State) (kind : ResKind) (stage : Stage) : (s.failWith kind stage).now = s.now := rfl
@[simp] theorem State.failWith_env (s : State) (kind : ResKind) (stage : Stage) : (s.failWith kind stage).env = s.env := rfl
@[simp] theorem State.failWith_loop (s : State) (kind : ResKind) (stage : Stage) : (s.failWith kind stage).loop = s.loop := rfl
@[simp] theorem State.failWith_inputs (s : State) (kind : ResKind) (stage : Stage) : (s.failWith kind stage).inputs = s.inputs := rfl
@[simp] theorem State.failWith_cfg (s : State) (kind : ResKind) (stage : Stage) : (s.failWith kind stage).cfg = s.cfg := rfl
@[simp] theorem State.failWith_trace (s : State) (kind : ResKind) (stage : Stage) : (s.failWith kind stage).trace = s.trace := rfl
@[simp] theorem State.failWith_calls (s : State) (kind : ResKind) (stage : Stage) : (s.failWith kind stage).calls = s.calls := rfl
@[simp] theorem State.failWith_primResult (s : State) (kind : ResKind) (stage : Stage) : (s.failWith kind stage).primResult = s.primResult := rfl

@[simp] theorem State.goto_offset (s : State) (target : Step) : (s.goto target).offset = s.offset := rfl
@[simp] theorem State.goto_wdata (s : State) (target : Step) : (s.goto target).wdata = s.wdata := rfl
@[simp] theorem State.goto_rdata (s : State) (target : Step) : (s.goto target).rdata = s.rdata := rfl
@[simp] theorem State.goto_lsb (s : State) (target : Step) : (s.goto target).lsb = s.lsb := rfl
@[simp] theorem State.goto_step (s : State) (target : Step) : (s.goto target).step = target := rfl
@[simp] theorem State.goto_fe (s : State) (target : Step) : (s.goto target).fe = s.fe := rfl
@[simp] theorem State.goto_busy (s : State) (target : Step) : (s.goto target).busy = s.busy := rfl
@[simp] theorem State.goto_done (s : State) (target : Step) : (s.goto target).done = s.done := rfl
@[simp] theorem State.goto_res (s : State) (target : Step) : (s.goto target).res = s.res := rfl
@[simp] theorem State.goto_timeout (s : State) (target : Step) : (s.goto target).timeout = s.timeout := rfl
@[simp] theorem State.goto_deadline (s : State) (target : Step) : (s.goto target).deadline = s.deadline := rfl
@[simp] theorem State.goto_outstanding (s : State) (target : Step) : (s.goto target).outstanding = s.outstanding := rfl
@[simp] theorem State.goto_req (s : State) (target : Step) : (s.goto target).req = s.req := rfl
@[simp] theorem State.goto_start (s : State) (target : Step) : (s.goto target).start = s.start := rfl
@[simp] theorem State.goto_palReady (s : State) (target : Step) : (s.goto target).palReady = s.palReady := rfl
@[simp] theorem State.goto_now (s : State) (target : Step) : (s.goto target).now = s.now := rfl
@[simp] theorem State.goto_env (s : State) (target : Step) : (s.goto target).env = s.env := rfl
@[simp] theorem State.goto_loop (s : State) (target : Step) : (s.goto target).loop = s.loop := rfl
@[simp] theorem State.goto_inputs (s : State) (target : Step) : (s.goto target).inputs = s.inputs := rfl
@[simp] theorem State.goto_cfg (s : State) (target : Step) : (s.goto target).cfg = s.cfg := rfl
@[simp] theorem State.goto_trace (s : State) (target : Step) : (s.goto target).trace = s.trace := rfl
@[simp] theorem State.goto_calls (s : State) (target : Step) : (s.goto target).calls = s.calls := rfl
@[simp] theorem State.goto_primResult (s : State) (target : Step) : (s.goto target).primResult = s.primResult := rfl

@[simp] theorem State.enterPoll_offset (s : State) (target : Step) : (s.enterPoll target).offset = s.offset := rfl
@[simp] theorem State.enterPoll_wdata (s : State) (target : Step) : (s.enterPoll target).wdata = s.wdata := rfl
@[simp] theorem State.enterPoll_rdata (s : State) (target : Step) : (s.enterPoll target).rdata = s.rdata := rfl
@[simp] theorem State.enterPoll_lsb (s : State) (target : Step) : (s.enterPoll target).lsb = s.lsb := rfl
@[simp] theorem State.enterPoll_step (s : State) (target : Step) : (s.enterPoll target).step = target := rfl
@[simp] theorem State.enterPoll_fe (s : State) (target : Step) : (s.enterPoll target).fe = s.fe := rfl
@[simp] theorem State.enterPoll_busy (s : State) (target : Step) : (s.enterPoll target).busy = s.busy := rfl
@[simp] theorem State.enterPoll_done (s : State) (target : Step) : (s.enterPoll target).done = s.done := rfl
@[simp] theorem State.enterPoll_res (s : State) (target : Step) : (s.enterPoll target).res = s.res := rfl
@[simp] theorem State.enterPoll_timeout (s : State) (target : Step) : (s.enterPoll target).timeout = s.timeout := rfl
@[simp] theorem State.enterPoll_deadline (s : State) (target : Step) : (s.enterPoll target).deadline = s.now + s.timeout.toNat := rfl
@[simp] theorem State.enterPoll_outstanding (s : State) (target : Step) : (s.enterPoll target).outstanding = s.outstanding := rfl
@[simp] theorem State.enterPoll_req (s : State) (target : Step) : (s.enterPoll target).req = s.req := rfl
@[simp] theorem State.enterPoll_start (s : State) (target : Step) : (s.enterPoll target).start = s.start := rfl
@[simp] theorem State.enterPoll_palReady (s : State) (target : Step) : (s.enterPoll target).palReady = s.palReady := rfl
@[simp] theorem State.enterPoll_now (s : State) (target : Step) : (s.enterPoll target).now = s.now := rfl
@[simp] theorem State.enterPoll_env (s : State) (target : Step) : (s.enterPoll target).env = s.env := rfl
@[simp] theorem State.enterPoll_loop (s : State) (target : Step) : (s.enterPoll target).loop = s.loop := rfl
@[simp] theorem State.enterPoll_inputs (s : State) (target : Step) : (s.enterPoll target).inputs = s.inputs := rfl
@[simp] theorem State.enterPoll_cfg (s : State) (target : Step) : (s.enterPoll target).cfg = s.cfg := rfl
@[simp] theorem State.enterPoll_trace (s : State) (target : Step) : (s.enterPoll target).trace = s.trace := rfl
@[simp] theorem State.enterPoll_calls (s : State) (target : Step) : (s.enterPoll target).calls = s.calls := rfl
@[simp] theorem State.enterPoll_primResult (s : State) (target : Step) : (s.enterPoll target).primResult = s.primResult := rfl

@[simp] theorem State.beginRead_offset (s : State) (fe : Fe) (o : Byte) : (s.beginRead fe o).offset = o := rfl
@[simp] theorem State.beginRead_wdata (s : State) (fe : Fe) (o : Byte) : (s.beginRead fe o).wdata = s.wdata := rfl
@[simp] theorem State.beginRead_rdata (s : State) (fe : Fe) (o : Byte) : (s.beginRead fe o).rdata = s.rdata := rfl
@[simp] theorem State.beginRead_lsb (s : State) (fe : Fe) (o : Byte) : (s.beginRead fe o).lsb = s.lsb := rfl
@[simp] theorem State.beginRead_step (s : State) (fe : Fe) (o : Byte) : (s.beginRead fe o).step = .r1 := rfl
@[simp] theorem State.beginRead_fe (s : State) (fe : Fe) (o : Byte) : (s.beginRead fe o).fe = fe := rfl
@[simp] theorem State.beginRead_busy (s : State) (fe : Fe) (o : Byte) : (s.beginRead fe o).busy = true := rfl
@[simp] theorem State.beginRead_done (s : State) (fe : Fe) (o : Byte) : (s.beginRead fe o).done = false := rfl
@[simp] theorem State.beginRead_res (s : State) (fe : Fe) (o : Byte) : (s.beginRead fe o).res = s.res := rfl
@[simp] theorem State.beginRead_timeout (s : State) (fe : Fe) (o : Byte) : (s.beginRead fe o).timeout = s.timeout := rfl
@[simp] theorem State.beginRead_deadline (s : State) (fe : Fe) (o : Byte) : (s.beginRead fe o).deadline = s.now + s.timeout.toNat := rfl
@[simp] theorem State.beginRead_outstanding (s : State) (fe : Fe) (o : Byte) : (s.beginRead fe o).outstanding = s.outstanding := rfl
@[simp] theorem State.beginRead_req (s : State) (fe : Fe) (o : Byte) : (s.beginRead fe o).req = s.req := rfl
@[simp] theorem State.beginRead_start (s : State) (fe : Fe) (o : Byte) : (s.beginRead fe o).start = s.start := rfl
@[simp] theorem State.beginRead_palReady (s : State) (fe : Fe) (o : Byte) : (s.beginRead fe o).palReady = s.palReady := rfl
@[simp] theorem State.beginRead_now (s : State) (fe : Fe) (o : Byte) : (s.beginRead fe o).now = s.now := rfl
@[simp] theorem State.beginRead_env (s : State) (fe : Fe) (o : Byte) : (s.beginRead fe o).env = s.env := rfl
@[simp] theorem State.beginRead_loop (s : State) (fe : Fe) (o : Byte) : (s.beginRead fe o).loop = s.loop := rfl
@[simp] theorem State.beginRead_inputs (s : State) (fe : Fe) (o : Byte) : (s.beginRead fe o).inputs = s.inputs := rfl
@[simp] theorem State.beginRead_cfg (s : State) (fe : Fe) (o : Byte) : (s.beginRead fe o).cfg = s.cfg := rfl
@[simp] theorem State.beginRead_trace (s : State) (fe : Fe) (o : Byte) : (s.beginRead fe o).trace = s.trace := rfl
@[simp] theorem State.beginRead_calls (s : State) (fe : Fe) (o : Byte) : (s.beginRead fe o).calls = s.calls := rfl
@[simp] theorem State.beginRead_primResult (s : State) (fe : Fe) (o : Byte) : (s.beginRead fe o).primResult = s.primResult := rfl

@[simp] theorem State.beginWrite_offset (s : State) (fe : Fe) (o v : Byte) : (s.beginWrite fe o v).offset = o := rfl
@[simp] theorem State.beginWrite_wdata (s : State) (fe : Fe) (o v : Byte) : (s.beginWrite fe o v).wdata = v := rfl
@[simp] theorem State.beginWrite_rdata (s : State) (fe : Fe) (o v : Byte) : (s.beginWrite fe o v).rdata = s.rdata := rfl
@[simp] theorem State.beginWrite_lsb (s : State) (fe : Fe) (o v : Byte) : (s.beginWrite fe o v).lsb = s.lsb := rfl
@[simp] theorem State.beginWrite_step (s : State) (fe : Fe) (o v : Byte) : (s.beginWrite fe o v).step = .w1 := rfl
@[simp] theorem State.beginWrite_fe (s : State) (fe : Fe) (o v : Byte) : (s.beginWrite fe o v).fe = fe := rfl
@[simp] theorem State.beginWrite_busy (s : State) (fe : Fe) (o v : Byte) : (s.beginWrite fe o v).busy = true := rfl
@[simp] theorem State.beginWrite_done (s : State) (fe : Fe) (o v : Byte) : (s.beginWrite fe o v).done = false := rfl
@[simp] theorem State.beginWrite_res (s : State) (fe : Fe) (o v : Byte) : (s.beginWrite fe o v).res = s.res := rfl
@[simp] theorem State.beginWrite_timeout (s : State) (fe : Fe) (o v : Byte) : (s.beginWrite fe o v).timeout = s.timeout := rfl
@[simp] theorem State.beginWrite_deadline (s : State) (fe : Fe) (o v : Byte) : (s.beginWrite fe o v).deadline = s.now + s.timeout.toNat := rfl
@[simp] theorem State.beginWrite_outstanding (s : State) (fe : Fe) (o v : Byte) : (s.beginWrite fe o v).outstanding = s.outstanding := rfl
@[simp] theorem State.beginWrite_req (s : State) (fe : Fe) (o v : Byte) : (s.beginWrite fe o v).req = s.req := rfl
@[simp] theorem State.beginWrite_start (s : State) (fe : Fe) (o v : Byte) : (s.beginWrite fe o v).start = s.start := rfl
@[simp] theorem State.beginWrite_palReady (s : State) (fe : Fe) (o v : Byte) : (s.beginWrite fe o v).palReady = s.palReady := rfl
@[simp] theorem State.beginWrite_now (s : State) (fe : Fe) (o v : Byte) : (s.beginWrite fe o v).now = s.now := rfl
@[simp] theorem State.beginWrite_env (s : State) (fe : Fe) (o v : Byte) : (s.beginWrite fe o v).env = s.env := rfl
@[simp] theorem State.beginWrite_loop (s : State) (fe : Fe) (o v : Byte) : (s.beginWrite fe o v).loop = s.loop := rfl
@[simp] theorem State.beginWrite_inputs (s : State) (fe : Fe) (o v : Byte) : (s.beginWrite fe o v).inputs = s.inputs := rfl
@[simp] theorem State.beginWrite_cfg (s : State) (fe : Fe) (o v : Byte) : (s.beginWrite fe o v).cfg = s.cfg := rfl
@[simp] theorem State.beginWrite_trace (s : State) (fe : Fe) (o v : Byte) : (s.beginWrite fe o v).trace = s.trace := rfl
@[simp] theorem State.beginWrite_calls (s : State) (fe : Fe) (o v : Byte) : (s.beginWrite fe o v).calls = s.calls := rfl
@[simp] theorem State.beginWrite_primResult (s : State) (fe : Fe) (o v : Byte) : (s.beginWrite fe o v).primResult = s.primResult := rfl

@[simp] theorem State.reject_offset (s : State) : (s.reject).offset = s.offset := rfl
@[simp] theorem State.reject_wdata (s : State) : (s.reject).wdata = s.wdata := rfl
@[simp] theorem State.reject_rdata (s : State) : (s.reject).rdata = s.rdata := rfl
@[simp] theorem State.reject_lsb (s : State) : (s.reject).lsb = s.lsb := rfl
@[simp] theorem State.reject_step (s : State) : (s.reject).step = s.step := rfl
@[simp] theorem State.reject_fe (s : State) : (s.reject).fe = s.fe := rfl
@[simp] theorem State.reject_busy (s : State) : (s.reject).busy = s.busy := rfl
@[simp] theorem State.reject_done (s : State) : (s.reject).done = true := rfl
@[simp] theorem State.reject_res (s : State) : (s.reject).res = packRes .invalidArgument .none 0 := rfl
@[simp] theorem State.reject_timeout (s : State) : (s.reject).timeout = s.timeout := rfl
@[simp] theorem State.reject_deadline (s : State) : (s.reject).deadline = s.deadline := rfl
@[simp] theorem State.reject_outstanding (s : State) : (s.reject).outstanding = s.outstanding := rfl
@[simp] theorem State.reject_req (s : State) : (s.reject).req = s.req := rfl
@[simp] theorem State.reject_start (s : State) : (s.reject).start = s.start := rfl
@[simp] theorem State.reject_palReady (s : State) : (s.reject).palReady = s.palReady := rfl
@[simp] theorem State.reject_now (s : State) : (s.reject).now = s.now := rfl
@[simp] theorem State.reject_env (s : State) : (s.reject).env = s.env := rfl
@[simp] theorem State.reject_loop (s : State) : (s.reject).loop = s.loop := rfl
@[simp] theorem State.reject_inputs (s : State) : (s.reject).inputs = s.inputs := rfl
@[simp] theorem State.reject_cfg (s : State) : (s.reject).cfg = s.cfg := rfl
@[simp] theorem State.reject_trace (s : State) : (s.reject).trace = s.trace := rfl
@[simp] theorem State.reject_calls (s : State) : (s.reject).calls = s.calls := rfl
@[simp] theorem State.reject_primResult (s : State) : (s.reject).primResult = s.primResult := rfl

@[simp] theorem State.writeTimeout_offset (s : State) (ticks : BitVec 32) : (s.writeTimeout ticks).offset = s.offset := rfl
@[simp] theorem State.writeTimeout_wdata (s : State) (ticks : BitVec 32) : (s.writeTimeout ticks).wdata = s.wdata := rfl
@[simp] theorem State.writeTimeout_rdata (s : State) (ticks : BitVec 32) : (s.writeTimeout ticks).rdata = s.rdata := rfl
@[simp] theorem State.writeTimeout_lsb (s : State) (ticks : BitVec 32) : (s.writeTimeout ticks).lsb = s.lsb := rfl
@[simp] theorem State.writeTimeout_step (s : State) (ticks : BitVec 32) : (s.writeTimeout ticks).step = s.step := rfl
@[simp] theorem State.writeTimeout_fe (s : State) (ticks : BitVec 32) : (s.writeTimeout ticks).fe = s.fe := rfl
@[simp] theorem State.writeTimeout_busy (s : State) (ticks : BitVec 32) : (s.writeTimeout ticks).busy = s.busy := rfl
@[simp] theorem State.writeTimeout_done (s : State) (ticks : BitVec 32) : (s.writeTimeout ticks).done = s.done := rfl
@[simp] theorem State.writeTimeout_res (s : State) (ticks : BitVec 32) : (s.writeTimeout ticks).res = s.res := rfl
@[simp] theorem State.writeTimeout_timeout (s : State) (ticks : BitVec 32) : (s.writeTimeout ticks).timeout = ticks := rfl
@[simp] theorem State.writeTimeout_deadline (s : State) (ticks : BitVec 32) : (s.writeTimeout ticks).deadline = s.deadline := rfl
@[simp] theorem State.writeTimeout_outstanding (s : State) (ticks : BitVec 32) : (s.writeTimeout ticks).outstanding = s.outstanding := rfl
@[simp] theorem State.writeTimeout_req (s : State) (ticks : BitVec 32) : (s.writeTimeout ticks).req = s.req := rfl
@[simp] theorem State.writeTimeout_start (s : State) (ticks : BitVec 32) : (s.writeTimeout ticks).start = s.start := rfl
@[simp] theorem State.writeTimeout_palReady (s : State) (ticks : BitVec 32) : (s.writeTimeout ticks).palReady = s.palReady := rfl
@[simp] theorem State.writeTimeout_now (s : State) (ticks : BitVec 32) : (s.writeTimeout ticks).now = s.now := rfl
@[simp] theorem State.writeTimeout_env (s : State) (ticks : BitVec 32) : (s.writeTimeout ticks).env = s.env := rfl
@[simp] theorem State.writeTimeout_loop (s : State) (ticks : BitVec 32) : (s.writeTimeout ticks).loop = s.loop := rfl
@[simp] theorem State.writeTimeout_inputs (s : State) (ticks : BitVec 32) : (s.writeTimeout ticks).inputs = s.inputs := rfl
@[simp] theorem State.writeTimeout_cfg (s : State) (ticks : BitVec 32) : (s.writeTimeout ticks).cfg = s.cfg := rfl
@[simp] theorem State.writeTimeout_trace (s : State) (ticks : BitVec 32) : (s.writeTimeout ticks).trace = s.trace := rfl
@[simp] theorem State.writeTimeout_calls (s : State) (ticks : BitVec 32) : (s.writeTimeout ticks).calls = s.calls := rfl
@[simp] theorem State.writeTimeout_primResult (s : State) (ticks : BitVec 32) : (s.writeTimeout ticks).primResult = s.primResult := rfl

/-! ### The clock moves `NOW` and the environment only -/

@[simp] theorem State.elapse_offset (s : State) (n : Nat) : (s.elapse n).offset = s.offset := by
  unfold State.elapse; split <;> rfl
@[simp] theorem State.elapse_wdata (s : State) (n : Nat) : (s.elapse n).wdata = s.wdata := by
  unfold State.elapse; split <;> rfl
@[simp] theorem State.elapse_rdata (s : State) (n : Nat) : (s.elapse n).rdata = s.rdata := by
  unfold State.elapse; split <;> rfl
@[simp] theorem State.elapse_lsb (s : State) (n : Nat) : (s.elapse n).lsb = s.lsb := by
  unfold State.elapse; split <;> rfl
@[simp] theorem State.elapse_step (s : State) (n : Nat) : (s.elapse n).step = s.step := by
  unfold State.elapse; split <;> rfl
@[simp] theorem State.elapse_fe (s : State) (n : Nat) : (s.elapse n).fe = s.fe := by
  unfold State.elapse; split <;> rfl
@[simp] theorem State.elapse_busy (s : State) (n : Nat) : (s.elapse n).busy = s.busy := by
  unfold State.elapse; split <;> rfl
@[simp] theorem State.elapse_done (s : State) (n : Nat) : (s.elapse n).done = s.done := by
  unfold State.elapse; split <;> rfl
@[simp] theorem State.elapse_res (s : State) (n : Nat) : (s.elapse n).res = s.res := by
  unfold State.elapse; split <;> rfl
@[simp] theorem State.elapse_timeout (s : State) (n : Nat) : (s.elapse n).timeout = s.timeout := by
  unfold State.elapse; split <;> rfl
@[simp] theorem State.elapse_deadline (s : State) (n : Nat) : (s.elapse n).deadline = s.deadline := by
  unfold State.elapse; split <;> rfl
@[simp] theorem State.elapse_outstanding (s : State) (n : Nat) : (s.elapse n).outstanding = s.outstanding := by
  unfold State.elapse; split <;> rfl
@[simp] theorem State.elapse_req (s : State) (n : Nat) : (s.elapse n).req = s.req := by
  unfold State.elapse; split <;> rfl
@[simp] theorem State.elapse_start (s : State) (n : Nat) : (s.elapse n).start = s.start := by
  unfold State.elapse; split <;> rfl
@[simp] theorem State.elapse_palReady (s : State) (n : Nat) : (s.elapse n).palReady = s.palReady := by
  unfold State.elapse; split <;> rfl
@[simp] theorem State.elapse_loop (s : State) (n : Nat) : (s.elapse n).loop = s.loop := by
  unfold State.elapse; split <;> rfl
@[simp] theorem State.elapse_inputs (s : State) (n : Nat) : (s.elapse n).inputs = s.inputs := by
  unfold State.elapse; split <;> rfl
@[simp] theorem State.elapse_cfg (s : State) (n : Nat) : (s.elapse n).cfg = s.cfg := by
  unfold State.elapse; split <;> rfl
@[simp] theorem State.elapse_trace (s : State) (n : Nat) : (s.elapse n).trace = s.trace := by
  unfold State.elapse; split <;> rfl
@[simp] theorem State.elapse_calls (s : State) (n : Nat) : (s.elapse n).calls = s.calls := by
  unfold State.elapse; split <;> rfl
@[simp] theorem State.elapse_primResult (s : State) (n : Nat) : (s.elapse n).primResult = s.primResult := by
  unfold State.elapse; split <;> rfl

theorem State.elapse_now_le (s : State) (n : Nat) : s.now ≤ (s.elapse n).now := by
  unfold State.elapse; split <;> simp

theorem State.elapse_deterministic (s : State) (n : Nat) (h : s.env.clock = .deterministic) :
    s.elapse n = { s with now := s.now + n } := by
  unfold State.elapse; rw [h]

@[simp] theorem State.elapse_ec (s : State) (n : Nat) : (s.elapse n).env.ec = s.env.ec := by
  unfold State.elapse; split <;> rfl

end Sys2Proof.Machine
end

