-- ==== Sys2Proof/Laws/Events.lean ====
section
/-! SUPPORT. What the host, the control loop, the environment's events and a call's end can do, said once each. -/

namespace Sys2Proof.Machine

/-- What everything but a reset can change between two steps: inputs, `TIMEOUT`, calls, the loop, a counter. -/
def HostMoved (s t : State) : Prop :=
  t = { s with req := t.req, start := t.start, palReady := t.palReady, timeout := t.timeout, calls := t.calls,
               loop := t.loop, env := { s.env with draws := t.env.draws } }

theorem HostMoved.refl (s : State) : HostMoved s s := rfl

theorem HostMoved.trans {s t u : State} (h : HostMoved s t) (k : HostMoved t u) : HostMoved s u := by
  unfold HostMoved at *; rw [k, h]

/-- The end of a call takes it off the queue or, unanswered, leaves it there. -/
theorem State.finishCall_cases (s : State) :
    (s.finishCall = s ∧ s.otherWaits = true) ∨
    (s.finishCall = { s with calls := s.calls.tail } ∧ s.otherWaits = false) := by
  unfold State.finishCall
  cases s.otherWaits <;> simp

theorem State.retire_cases (s t : State) :
    s.retire t = t ∨ (s.retire t = { t with calls := t.calls.tail } ∧ s.nextCall.isSome = true) := by
  unfold State.retire
  cases s.nextCall.isSome with
  | false => exact .inl rfl
  | true =>
    rcases t.finishCall_cases with ⟨h, -⟩ | ⟨h, -⟩
    · exact .inl h
    · exact .inr ⟨h, rfl⟩

theorem State.submit_hostMoved (s : State) (i : Instr) : HostMoved s (s.submit i) := rfl

theorem State.loopSubmit_hostMoved (s : State) (l : ControlLoop) (phase : LoopPhase) (i : Instr) :
    HostMoved s (s.loopSubmit l phase i) := rfl

theorem State.endStrobe_hostMoved (s : State) : HostMoved s s.endStrobe := rfl

@[simp] theorem State.endStrobe_start (s : State) : s.endStrobe.start = false := rfl

theorem State.endStrobe_noLoop {s : State} (h : s.loop = none) : s.endStrobe = { s with start := false } := by
  unfold State.endStrobe; rw [h]; rfl

/-- After a reset the loop is where it was only if it strobes a request of its own or is over. -/
theorem State.loopReset_cases (s : State) (l : ControlLoop) (h : s.loop = some l) :
    (s.loopReset = s ∧ (l.strobes = true ∨ l.phase = .stopped)) ∨
    (s.loopReset = { s with loop := some { l with phase := .waiting } } ∧ l.strobes = false ∧ l.phase ≠ .stopped) := by
  unfold State.loopReset
  rw [h]
  obtain ⟨config, lastLevel, stop, phase, strobes⟩ := l
  cases strobes <;> cases phase <;> simp

theorem State.loopTimer_hostMoved (s : State) : HostMoved s s.loopTimer := by
  unfold State.loopTimer
  split
  · rfl
  · split
    · split <;> rfl
    · rfl

theorem State.loopStart_hostMoved (s : State) (c : LoopConfig) (acquired : Bool) :
    HostMoved s (s.loopStart c acquired) := by
  unfold State.loopStart
  simp only
  split <;> split <;> rfl

theorem State.loopStop_hostMoved (s : State) : HostMoved s s.loopStop := by
  unfold State.loopStop; split <;> rfl

theorem State.loopReact_hostMoved (s : State) : HostMoved s s.loopReact := by
  unfold State.loopReact
  split
  · rfl
  · split
    · split
      · split
        · rfl
        · simp only; split <;> rfl
      · split <;> rfl
      · rfl
      · rfl
      · rfl
    · rfl

theorem State.loopReset_loop (s : State) : s.loopReset = { s with loop := s.loopReset.loop } := by
  unfold State.loopReset
  split
  · rfl
  · split <;> rfl

/-- An event is a reset, or moves only what the host can move. -/
theorem State.applyEvent_cases (s : State) (e : EnvEvent) :
    (∃ b, e = .reset b ∧ s.applyEvent e = (s.engineReset b).loopReset) ∨ HostMoved s (s.applyEvent e) := by
  cases e with
  | request req start => right; simp only [State.applyEvent]; split <;> rfl
  | writeTimeout t => exact .inr rfl
  | palReady r => exact .inr rfl
  | reset b => exact .inl ⟨b, rfl, rfl⟩
  | drive c => exact .inr rfl
  | loopStart c a => exact .inr (s.loopStart_hostMoved c a)
  | loopTimer => exact .inr s.loopTimer_hostMoved
  | loopStop => exact .inr s.loopStop_hostMoved

end Sys2Proof.Machine
end

