-- ==== Sys2Proof/Laws/Memory.lean ====
section
/-! SUPPORT. EC register space: read after write, and that every operation keeps the canonical form. -/

namespace Sys2Proof.Machine

theorem Memory.read_below {lo : Nat} {m : Memory} (h : Memory.wfFrom lo m = true) {a : Nat} (ha : a < lo) :
    Memory.read m a = Memory.unlisted a := by
  induction m generalizing lo with
  | nil => rfl
  | cons kv rest ih =>
    obtain ⟨k, v⟩ := kv
    simp only [Memory.wfFrom, Bool.and_eq_true, decide_eq_true_eq] at h
    have hne : k ≠ a := by omega
    simp only [Memory.read, if_neg hne]
    exact ih h.2 (by omega)

/-- A read after a write to the same offset gives the byte written. -/
theorem Memory.read_write_same {lo : Nat} {m : Memory} (h : Memory.wfFrom lo m = true) (a : Nat) (v : Byte) :
    Memory.read (Memory.write m a v) a = v := by
  induction m generalizing lo with
  | nil => unfold Memory.write; split <;> simp_all [Memory.read]
  | cons kv rest ih =>
    obtain ⟨k, w⟩ := kv
    have hall := h
    simp only [Memory.wfFrom, Bool.and_eq_true, decide_eq_true_eq] at h
    unfold Memory.write
    by_cases hlt : a < k
    · have hbelow : Memory.read rest a = Memory.unlisted a := Memory.read_below h.2 (by omega)
      by_cases hv : v = Memory.unlisted a
      · have hne : k ≠ a := by omega
        simp [hlt, hv, Memory.read, hne, hbelow]
      · simp [hlt, hv, Memory.read]
    · by_cases hak : a = k
      · have hbelow : Memory.read rest a = Memory.unlisted a := Memory.read_below h.2 (by omega)
        subst hak
        by_cases hv : v = Memory.unlisted a
        · simp [hv, hbelow]
        · simp [hv, Memory.read]
      · have hne : k ≠ a := fun he => hak he.symm
        simp only [if_neg hlt, if_neg hak, Memory.read, if_neg hne]
        exact ih h.2

/-- A write leaves every other offset alone. -/
theorem Memory.read_write_other (m : Memory) {a b : Nat} (hab : b ≠ a) (v : Byte) :
    Memory.read (Memory.write m a v) b = Memory.read m b := by
  induction m with
  | nil => unfold Memory.write; split <;> simp [Memory.read, Ne.symm hab, Memory.unlisted]
  | cons kv rest ih =>
    obtain ⟨k, w⟩ := kv
    unfold Memory.write
    by_cases hlt : a < k
    · by_cases hv : v = Memory.unlisted a
      · simp [hlt, hv]
      · simp [hlt, hv, Memory.read, Ne.symm hab]
    · by_cases hak : a = k
      · have hkb : k ≠ b := by omega
        by_cases hv : v = Memory.unlisted k
        · simp [hak, hv, Memory.read, hkb]
        · simp [hak, hv, Memory.read, hkb]
      · simp only [if_neg hlt, if_neg hak, Memory.read, ih]

theorem Memory.write_wfFrom {lo : Nat} {m : Memory} (h : Memory.wfFrom lo m = true) {a : Nat} (hlo : lo ≤ a)
    (ha : a < 256) (v : Byte) : Memory.wfFrom lo (Memory.write m a v) = true := by
  induction m generalizing lo with
  | nil => unfold Memory.write; split <;> simp_all [Memory.wfFrom]
  | cons kv rest ih =>
    obtain ⟨k, w⟩ := kv
    have hall := h
    simp only [Memory.wfFrom, Bool.and_eq_true, decide_eq_true_eq, bne_iff_ne, ne_eq] at h
    unfold Memory.write
    by_cases hlt : a < k
    · by_cases hv : v = Memory.unlisted a
      · simp [hlt, hv, hall]
      · simp only [hlt, if_true, hv, if_false, Memory.wfFrom, Bool.and_eq_true, decide_eq_true_eq, bne_iff_ne, ne_eq,
          not_false_eq_true]
        exact ⟨⟨⟨hlo, ha⟩, trivial⟩, ⟨⟨by omega, h.1.1.2⟩, h.1.2⟩, h.2⟩
    · by_cases hak : a = k
      · subst hak
        by_cases hv : v = Memory.unlisted a
        · simp only [lt_irrefl, if_false, if_true, hv]
          have mono : ∀ {l l' : Nat} {r : Memory}, l' ≤ l → Memory.wfFrom l r = true → Memory.wfFrom l' r = true := by
            intro l l' r hl hr
            cases r with
            | nil => rfl
            | cons p q =>
              simp only [Memory.wfFrom, Bool.and_eq_true, decide_eq_true_eq] at hr ⊢
              exact ⟨⟨⟨by omega, hr.1.1.2⟩, hr.1.2⟩, hr.2⟩
          exact mono (by omega) h.2
        · simp only [lt_irrefl, if_false, if_true, hv, Memory.wfFrom, Bool.and_eq_true, decide_eq_true_eq, bne_iff_ne,
            ne_eq, not_false_eq_true]
          exact ⟨⟨⟨hlo, ha⟩, trivial⟩, h.2⟩
      · simp only [if_neg hlt, if_neg hak, Memory.wfFrom, Bool.and_eq_true, decide_eq_true_eq, bne_iff_ne, ne_eq]
        exact ⟨h.1, ih h.2 (by omega)⟩

/-- Every store keeps the canonical form. -/
theorem Memory.write_wf {m : Memory} (h : Memory.wf m = true) (a : Byte) (v : Byte) :
    Memory.wf (Memory.write m a.toNat v) = true :=
  Memory.write_wfFrom h (Nat.zero_le _) a.isLt v

theorem State.reset_regs_wf : Memory.wf State.reset.env.ec.regs = true := rfl

theorem RefEc.consume_wf {e : RefEc} (h : Memory.wf e.regs = true) (k : Constants) : Memory.wf (e.consume k).regs = true := by
  unfold RefEc.consume RefEc.take
  split
  · exact h
  · split
    · exact h
    · split <;> exact h
  · split
    · exact h
    · exact h
    · exact Memory.write_wf h _ _
    · exact h

theorem RefEc.progress_wf {e : RefEc} (h : Memory.wf e.regs = true) (k : Constants) :
    Memory.wf (e.progress k).regs = true := by
  unfold RefEc.progress
  split
  · split
    · exact RefEc.consume_wf h k
    · exact h
    · exact h
  · exact h

@[simp] theorem RefEc.hostWrite_regs (e : RefEc) (p : Pending) : (e.hostWrite p).regs = e.regs := rfl

@[simp] theorem RefEc.ioWrite_regs (e : RefEc) (p : Port) (b : Byte) : (e.ioWrite p b).regs = e.regs := by
  cases p <;> rfl

theorem RefEc.ioRead_wf {e : RefEc} (h : Memory.wf e.regs = true) (cfg : Params) (p : Port) :
    Memory.wf (e.ioRead cfg p).2.regs = true := by
  cases p with
  | data => exact h
  | sc =>
    by_cases hs : e.stuck0 = true
    · simpa [RefEc.ioRead, hs] using h
    · simpa [RefEc.ioRead, hs] using RefEc.progress_wf h cfg.k

end Sys2Proof.Machine
end

