-- ==== Sys2Proof/Laws/Ops.lean ====
section
/-! SUPPORT. What a port operation and a poll iteration can do, said once. -/

namespace Sys2Proof.Machine

open Sys2Proof.Safety

/-! ### The clock and the agents on the bus move nothing else -/

theorem State.elapse_onlyBus (s : State) (n : Nat) : OnlyBusMoved s (s.elapse n) := by
  unfold State.elapse OnlyBusMoved; split <;> rfl

theorem OnlyBusMoved.trans {s t u : State} (h : OnlyBusMoved s t) (k : OnlyBusMoved t u) : OnlyBusMoved s u := by
  unfold OnlyBusMoved at *; rw [k, h]

theorem State.answered_onlyBus (s : State) (m : Master) (r : PortRequest) (b : Option Byte) :
    OnlyBusMoved s (s.answered m r b) := by
  have h := s.elapse_onlyBus s.cfg.portOpTicks
  unfold State.answered OnlyBusMoved at *
  simp only
  rw [h]

theorem State.answered_trace (s : State) (m : Master) (r : PortRequest) (b : Option Byte) :
    (s.answered m r b).trace = { master := m, dir := r.dir, port := r.port, byte := b } :: s.trace := by
  simp [State.answered]

theorem State.answered_outstanding (s : State) (m : Master) (r : PortRequest) (b : Option Byte) :
    (s.answered m r b).outstanding = none := rfl

theorem State.answered_now_le (s : State) (m : Master) (r : PortRequest) (b : Option Byte) :
    s.now ≤ (s.answered m r b).now :=
  s.elapse_now_le _

/-! ### The five ways a port operation ends, as equations -/

theorem State.busHeld_iff (s : State) (m : Master) (r : PortRequest) :
    s.busHeld m r = true ↔ ∃ q, s.outstanding = some q ∧ q ≠ (m, r) := by
  unfold State.busHeld
  cases s.outstanding <;> simp

theorem State.palRefuses_iff (s : State) : s.palRefuses = true ↔ s.outstanding = none ∧ s.palReady = false := by
  simp [State.palRefuses]

/-- The bus is free with the mechanism available, or carries this very request. -/
theorem State.bus_taken_iff (s : State) (m : Master) (r : PortRequest) :
    (s.busHeld m r = false ∧ s.palRefuses = false) ↔
      (s.outstanding = some (m, r) ∨ s.outstanding = none ∧ s.palReady = true) := by
  unfold State.busHeld State.palRefuses
  cases s.outstanding <;> simp

theorem State.portOp_waits {s : State} {m : Master} {r : PortRequest} (h : s.busHeld m r = true) :
    s.portOp m r = (.pending, s) := by
  simp [State.portOp, h]

theorem State.portOp_refused {s : State} {m : Master} {r : PortRequest} (h : s.outstanding = none)
    (hp : s.palReady = false) : s.portOp m r = (.error, s) := by
  simp [State.portOp, State.busHeld, State.palRefuses, h, hp]

theorem State.portOp_hang {s : State} {m : Master} {r : PortRequest} (h : s.busHeld m r = false)
    (hp : s.palRefuses = false) (hm : s.mechanism r = .hang) :
    s.portOp m r = (.pending, { s.usePlan.elapse 0 with outstanding := some (m, r) }) := by
  simp [State.portOp, h, hp, hm]

theorem State.portOp_fail {s : State} {m : Master} {r : PortRequest} (h : s.busHeld m r = false)
    (hp : s.palRefuses = false) {reached : Bool} (hm : s.mechanism r = .fail reached) :
    s.portOp m r =
      (.error, (if reached then { s with env := (s.reachEc r).2 } else s : State).usePlan.answered m r none) := by
  cases reached <;> simp [State.portOp, h, hp, hm]

theorem State.portOp_pass {s : State} {m : Master} {r : PortRequest} (h : s.busHeld m r = false)
    (hp : s.palRefuses = false) (hm : s.mechanism r = .pass) :
    s.portOp m r =
      (.ok (eventByte r (s.reachEc r).1),
        ({ s with env := (s.reachEc r).2 } : State).usePlan.answered m r (some (eventByte r (s.reachEc r).1))) := by
  simp [State.portOp, h, hp, hm]

/-- The inversion of a port operation: waiting for the bus, refused by the PAL, unanswered, failed, or answered
(40_port_access.md R101, R102, R105). -/
theorem State.portOp_cases (s : State) (m : Master) (r : PortRequest) :
    (s.portOp m r = (.pending, s) ∧ ∃ q, s.outstanding = some q ∧ q ≠ (m, r)) ∨
    (s.portOp m r = (.error, s) ∧ s.outstanding = none ∧ s.palReady = false) ∨
    (∃ t, s.portOp m r = (.pending, t) ∧ s.mechanism r = .hang ∧ OnlyBusMoved s t ∧ s.now ≤ t.now ∧ t.trace = s.trace ∧
      t.outstanding = some (m, r) ∧ t.env.ec = s.env.ec) ∨
    (∃ t reached, s.portOp m r = (.error, t) ∧ s.mechanism r = .fail reached ∧ OnlyBusMoved s t ∧ s.now ≤ t.now ∧
      t.trace = { master := m, dir := r.dir, port := r.port, byte := none } :: s.trace ∧ t.outstanding = none ∧
      t.env.ec = if reached then (s.reachEc r).2.ec else s.env.ec) ∨
    (∃ t, s.portOp m r = (.ok (eventByte r (s.reachEc r).1), t) ∧ s.mechanism r = .pass ∧ OnlyBusMoved s t ∧
      s.now ≤ t.now ∧
      t.trace = { master := m, dir := r.dir, port := r.port, byte := some (eventByte r (s.reachEc r).1) } :: s.trace ∧
      t.outstanding = none ∧ t.env.ec = (s.reachEc r).2.ec) := by
  by_cases hb : s.busHeld m r = true
  · exact .inl ⟨State.portOp_waits hb, (s.busHeld_iff m r).mp hb⟩
  by_cases hp : s.palRefuses = true
  · have h := s.palRefuses_iff.mp hp
    exact .inr (.inl ⟨State.portOp_refused h.1 h.2, h⟩)
  right; right
  rw [Bool.not_eq_true] at hb hp
  cases hm : s.mechanism r with
  | hang =>
    refine .inl ⟨_, State.portOp_hang hb hp hm, rfl, ?_, s.usePlan.elapse_now_le 0, ?_, rfl, ?_⟩
    · have h := s.usePlan.elapse_onlyBus 0
      unfold OnlyBusMoved at *; simp only; rw [h]; rfl
    · simp [State.usePlan]
    · simp [State.usePlan]
  | fail reached =>
    refine .inr (.inl ⟨_, reached, State.portOp_fail hb hp hm, rfl, ?_, ?_, ?_, rfl, ?_⟩)
    · refine OnlyBusMoved.trans ?_ (State.answered_onlyBus _ _ _ _)
      cases reached <;> rfl
    · refine Nat.le_trans ?_ (State.answered_now_le _ m r none)
      cases reached <;> exact Nat.le_refl _
    · cases reached <;> simp [State.answered_trace, State.usePlan]
    · cases reached <;> simp [State.answered, State.usePlan]
  | pass =>
    refine .inr (.inr ⟨_, State.portOp_pass hb hp hm, rfl, ?_, ?_, ?_, rfl, ?_⟩)
    · exact OnlyBusMoved.trans (t := ({ s with env := (s.reachEc r).2 } : State).usePlan) rfl
        (State.answered_onlyBus _ _ _ _)
    · exact State.answered_now_le (s := ({ s with env := (s.reachEc r).2 } : State).usePlan) m r _
    · simp [State.answered_trace, State.usePlan]
    · simp [State.answered, State.usePlan]

/-- A port operation changes no engine register, input or parameter (40_port_access.md R100). -/
theorem State.portOp_onlyBus (s : State) (m : Master) (r : PortRequest) : OnlyBusMoved s (s.portOp m r).2 := by
  rcases s.portOp_cases m r with ⟨h, -⟩ | ⟨h, -⟩ | ⟨t, h, -, k, -⟩ | ⟨t, _, h, -, k, -⟩ | ⟨t, h, -, k, -⟩
  · rw [h]; rfl
  · rw [h]; rfl
  · rw [h]; exact k
  · rw [h]; exact k
  · rw [h]; exact k

/-- Time does not run backwards in a port operation (10_state.md R25). -/
theorem State.portOp_now_le (s : State) (m : Master) (r : PortRequest) : s.now ≤ (s.portOp m r).2.now := by
  rcases s.portOp_cases m r with ⟨h, -⟩ | ⟨h, -⟩ | ⟨t, h, -, -, k, -⟩ | ⟨t, _, h, -, -, k, -⟩ | ⟨t, h, -, -, k, -⟩
  · rw [h]
  · rw [h]
  · rw [h]; exact k
  · rw [h]; exact k
  · rw [h]; exact k

theorem State.pollIteration_state (s : State) (m : Master) (mask : Byte) (want : Bool) :
    (s.pollIteration m mask want).2 = (s.ioRead m .sc).2 := by
  unfold State.pollIteration
  rcases h : s.ioRead m .sc with ⟨r, t⟩
  cases r with
  | ok b => simp only; split <;> [rfl; (split <;> rfl)]
  | error => rfl
  | pending => rfl

theorem State.pollIteration_onlyBus (s : State) (m : Master) (mask : Byte) (want : Bool) :
    OnlyBusMoved s (s.pollIteration m mask want).2 := by
  rw [State.pollIteration_state]; exact s.portOp_onlyBus _ _

/-- What a poll iteration answers, from its status read (41_polling.md R110, R117). -/
theorem State.pollIteration_ok {s t : State} {m : Master} {b : Byte} (h : s.ioRead m .sc = (.ok b, t)) (mask : Byte) (want : Bool) :
    s.pollIteration m mask want =
      (if flagOf b mask = want then .satisfied else if t.deadline ≤ t.now then .timedOut else .again, t) := by
  unfold State.pollIteration
  rw [h]
  simp only
  split <;> [rfl; (split <;> rfl)]

theorem State.pollIteration_error {s t : State} {m : Master} (h : s.ioRead m .sc = (.error, t)) (mask : Byte) (want : Bool) :
    s.pollIteration m mask want = (.portError, t) := by
  unfold State.pollIteration; rw [h]

theorem State.pollIteration_pending {s t : State} {m : Master} (h : s.ioRead m .sc = (.pending, t)) (mask : Byte) (want : Bool) :
    s.pollIteration m mask want = (.waiting, t) := by
  unfold State.pollIteration; rw [h]

/-! ### Fields a port operation leaves alone -/

@[simp] theorem State.portOp_offset (s : State) (m : Master) (r : PortRequest) : (s.portOp m r).2.offset = s.offset := by
  rw [s.portOp_onlyBus m r]
@[simp] theorem State.portOp_wdata (s : State) (m : Master) (r : PortRequest) : (s.portOp m r).2.wdata = s.wdata := by
  rw [s.portOp_onlyBus m r]
@[simp] theorem State.portOp_rdata (s : State) (m : Master) (r : PortRequest) : (s.portOp m r).2.rdata = s.rdata := by
  rw [s.portOp_onlyBus m r]
@[simp] theorem State.portOp_lsb (s : State) (m : Master) (r : PortRequest) : (s.portOp m r).2.lsb = s.lsb := by
  rw [s.portOp_onlyBus m r]
@[simp] theorem State.portOp_step (s : State) (m : Master) (r : PortRequest) : (s.portOp m r).2.step = s.step := by
  rw [s.portOp_onlyBus m r]
@[simp] theorem State.portOp_fe (s : State) (m : Master) (r : PortRequest) : (s.portOp m r).2.fe = s.fe := by
  rw [s.portOp_onlyBus m r]
@[simp] theorem State.portOp_busy (s : State) (m : Master) (r : PortRequest) : (s.portOp m r).2.busy = s.busy := by
  rw [s.portOp_onlyBus m r]
@[simp] theorem State.portOp_done (s : State) (m : Master) (r : PortRequest) : (s.portOp m r).2.done = s.done := by
  rw [s.portOp_onlyBus m r]
@[simp] theorem State.portOp_res (s : State) (m : Master) (r : PortRequest) : (s.portOp m r).2.res = s.res := by
  rw [s.portOp_onlyBus m r]
@[simp] theorem State.portOp_timeout (s : State) (m : Master) (r : PortRequest) : (s.portOp m r).2.timeout = s.timeout := by
  rw [s.portOp_onlyBus m r]
@[simp] theorem State.portOp_deadline (s : State) (m : Master) (r : PortRequest) : (s.portOp m r).2.deadline = s.deadline := by
  rw [s.portOp_onlyBus m r]
@[simp] theorem State.portOp_req (s : State) (m : Master) (r : PortRequest) : (s.portOp m r).2.req = s.req := by
  rw [s.portOp_onlyBus m r]
@[simp] theorem State.portOp_start (s : State) (m : Master) (r : PortRequest) : (s.portOp m r).2.start = s.start := by
  rw [s.portOp_onlyBus m r]
@[simp] theorem State.portOp_palReady (s : State) (m : Master) (r : PortRequest) : (s.portOp m r).2.palReady = s.palReady := by
  rw [s.portOp_onlyBus m r]
@[simp] theorem State.portOp_loop (s : State) (m : Master) (r : PortRequest) : (s.portOp m r).2.loop = s.loop := by
  rw [s.portOp_onlyBus m r]
@[simp] theorem State.portOp_inputs (s : State) (m : Master) (r : PortRequest) : (s.portOp m r).2.inputs = s.inputs := by
  rw [s.portOp_onlyBus m r]
@[simp] theorem State.portOp_cfg (s : State) (m : Master) (r : PortRequest) : (s.portOp m r).2.cfg = s.cfg := by
  rw [s.portOp_onlyBus m r]
@[simp] theorem State.portOp_calls (s : State) (m : Master) (r : PortRequest) : (s.portOp m r).2.calls = s.calls := by
  rw [s.portOp_onlyBus m r]
@[simp] theorem State.portOp_primResult (s : State) (m : Master) (r : PortRequest) : (s.portOp m r).2.primResult = s.primResult := by
  rw [s.portOp_onlyBus m r]

end Sys2Proof.Machine
end

