-- ==== Sys2Proof/Laws/PerInstr.lean ====
section
/-! SUPPORT. Families of lemmas over all instructions, one lemma per constructor. -/

namespace Sys2Proof.Laws.FitsFormat

/-- An instruction's word fits its channel's width, whatever the parameters (30_encoding.md R70, R78). -/
def Statement (i : Instr) : Prop := ∀ p : Params, encode p i < 2 ^ i.channel.width

theorem reqWord_lt (op : Nat) (h : op < 8) (a b : Byte) : reqWord op a b < 2 ^ 19 := by
  have ha := a.isLt
  have hb := b.isLt
  unfold reqWord
  omega

theorem portopWord_lt (dir : Nat) (h : dir < 2) (p b : Byte) : portopWord dir p b < 2 ^ 17 := by
  have hp := p.isLt
  have hb := b.isLt
  unfold portopWord
  omega

theorem readRegister (o b : Byte) : Statement (.readRegister o b) := fun _ => reqWord_lt 0 (by decide) o b
theorem writeRegister (o v : Byte) : Statement (.writeRegister o v) := fun _ => reqWord_lt 1 (by decide) o v
theorem fanRpmRead (a b : Byte) : Statement (.fanRpmRead a b) := fun _ => reqWord_lt 2 (by decide) a b
theorem tempRead (i b : Byte) : Statement (.tempRead i b) := fun _ => reqWord_lt 3 (by decide) i b
theorem fanLevelWrite (a l : Byte) : Statement (.fanLevelWrite a l) := fun _ => reqWord_lt 4 (by decide) a l
theorem reservedOp5 (a b : Byte) : Statement (.reservedOp5 a b) := fun _ => reqWord_lt 5 (by decide) a b
theorem reservedOp6 (a b : Byte) : Statement (.reservedOp6 a b) := fun _ => reqWord_lt 6 (by decide) a b
theorem reservedOp7 (a b : Byte) : Statement (.reservedOp7 a b) := fun _ => reqWord_lt 7 (by decide) a b
theorem rdEc : Statement (.rdEc) := fun p => p.k.cmdRead.isLt
theorem wrEc : Statement (.wrEc) := fun p => p.k.cmdWrite.isLt
theorem inStatus (s : Byte) : Statement (.inStatus s) := fun _ => portopWord_lt 0 (by decide) _ s
theorem inData (d : Byte) : Statement (.inData d) := fun _ => portopWord_lt 0 (by decide) _ d
theorem outCmd (c : Byte) : Statement (.outCmd c) := fun _ => portopWord_lt 1 (by decide) _ c
theorem outData (b : Byte) : Statement (.outData b) := fun _ => portopWord_lt 1 (by decide) _ b
theorem waitIbfClear (s : Byte) : Statement (.waitIbfClear s) := fun _ => s.isLt
theorem waitObfSet (s : Byte) : Statement (.waitObfSet s) := fun _ => s.isLt
theorem stepIdle : Statement (.stepIdle) := fun _ => by simp [encode, Instr.channel, Channel.width]
theorem stepR1 : Statement (.stepR1) := fun _ => by simp [encode, Instr.channel, Channel.width]
theorem stepR2 : Statement (.stepR2) := fun _ => by simp [encode, Instr.channel, Channel.width]
theorem stepR3 : Statement (.stepR3) := fun _ => by simp [encode, Instr.channel, Channel.width]
theorem stepR4 : Statement (.stepR4) := fun _ => by simp [encode, Instr.channel, Channel.width]
theorem stepR5 : Statement (.stepR5) := fun _ => by simp [encode, Instr.channel, Channel.width]
theorem stepR6 : Statement (.stepR6) := fun _ => by simp [encode, Instr.channel, Channel.width]
theorem stepR7 : Statement (.stepR7) := fun _ => by simp [encode, Instr.channel, Channel.width]
theorem stepW1 : Statement (.stepW1) := fun _ => by simp [encode, Instr.channel, Channel.width]
theorem stepW2 : Statement (.stepW2) := fun _ => by simp [encode, Instr.channel, Channel.width]
theorem stepW3 : Statement (.stepW3) := fun _ => by simp [encode, Instr.channel, Channel.width]
theorem stepW4 : Statement (.stepW4) := fun _ => by simp [encode, Instr.channel, Channel.width]
theorem stepW5 : Statement (.stepW5) := fun _ => by simp [encode, Instr.channel, Channel.width]
theorem stepW6 : Statement (.stepW6) := fun _ => by simp [encode, Instr.channel, Channel.width]
theorem stepW7 : Statement (.stepW7) := fun _ => by simp [encode, Instr.channel, Channel.width]

end Sys2Proof.Laws.FitsFormat
end

