-- ==== Sys2Proof/Tests/Slice0.lean ====
section
/-! SUPPORT. Tests. Expected values come from spec/opcode_table.json, 30_encoding.md and 95_test_vectors.md (the vector is
named in each comment). Then, for each statement with hypotheses, a witness that meets them. -/

namespace Sys2Proof.Tests

open Sys2Proof Sys2Proof.Machine Sys2Proof.Safety

/-! ### States the tests run on -/

/-- Deterministic time, every port operation passes, the oracle EC with these answers, `TIMEOUT` 3. -/
def bench (answers : List Nat) : State :=
  { State.reset with
    timeout := 3
    cfg := { Params.default with tickHz := 1000 }
    env := { State.reset.env with answers := answers, reliable := true, clock := .deterministic } }

/-- The bench at a step of an operation, with its poll window open until `NOW` = 3. -/
def benchAt (st : Machine.Step) (fe : Fe) (answers : List Nat) : State :=
  { bench answers with step := st, fe := fe, busy := true, deadline := 3 }

/-- The bench with the mechanism's next outcomes decided. -/
def withPlan (plan : List MechOutcome) (s : State) : State := { s with env := { s.env with plan := plan } }

/-- The bench with a request strobed. -/
def requesting (i : Instr) (answers : List Nat) : State := (bench answers).submit i

/-- The bench with the reference EC. -/
def reference (ec : RefEc) (s : State) : State := { s with env := { s.env with ecKind := .reference, ec := ec } }

/-- A field of the next state. -/
def after {α : Type} (o : Host.Outcome State Fault Refusal) (f : State → α) : Option α :=
  match o with
  | .next t => some (f t)
  | .fault _ => none
  | .refused _ => none

/-- Whether an outcome is a next state. -/
def isNext (o : Host.Outcome State Fault Refusal) : Bool := (after o (fun _ => ())).isSome

/-- Whether an outcome is the model's one fault. -/
def isFault (o : Host.Outcome State Fault Refusal) : Bool :=
  match o with
  | .fault .noCompletionRule => true
  | .next _ => false
  | .refused _ => false

/-- Whether the very next step after placing a table word at reset is a next state. -/
def runsFirst (nbits w : Nat) : Bool := isNext (step (State.reset.withFetchWord nbits w))

/-! ### WellFormed refuses ill-formed terms (the two `STATUS` rows fix one bit each) -/

theorem test_wellFormed_waitIbfClear_bit1_set : (Instr.waitIbfClear 0x02).WellFormed Params.default = false := by decide
theorem test_wellFormed_waitIbfClear_allOnes : (Instr.waitIbfClear 0xFF).WellFormed Params.default = false := by decide
theorem test_wellFormed_waitObfSet_bit0_clear : (Instr.waitObfSet 0x00).WellFormed Params.default = false := by decide
theorem test_wellFormed_waitObfSet_allButBit0 : (Instr.waitObfSet 0xFE).WellFormed Params.default = false := by decide

/-- Parameters with the two flags swapped (30_encoding.md R71: a model is not tied to the default masks). -/
def swapped : Params := { Params.default with obfMask := 0x02, ibfMask := 0x01 }

theorem test_wellFormed_swapped :
    (Instr.waitIbfClear 0x02).WellFormed swapped = true ∧ (Instr.waitObfSet 0x01).WellFormed swapped = false ∧
    decode swapped .pollIbf 0x02 = .ok (.waitIbfClear 0x02) ∧
    decode swapped .pollObf 0x01 = .error .statusDoesNotSatisfy := by decide

/-! ### Decoding words written out bit by bit from 30_encoding.md -/

theorem test_decode_req :
    decode Params.default .req 0b0000111100000000000 = .ok (.readRegister 0x78 0x00) ∧
    decode Params.default .req 0b0010010111100000011 = .ok (.writeRegister 0x2F 0x03) ∧
    decode Params.default .req 0b0100000000111111111 = .ok (.fanRpmRead 0x01 0xFF) ∧
    decode Params.default .req 0b0110000001000000000 = .ok (.tempRead 0x02 0x00) ∧
    decode Params.default .req 0b1000000000001000000 = .ok (.fanLevelWrite 0x00 0x40) ∧
    decode Params.default .req 0b1010001001000110100 = .ok (.reservedOp5 0x12 0x34) ∧
    decode Params.default .req 0b1100001001000110100 = .ok (.reservedOp6 0x12 0x34) ∧
    decode Params.default .req 0b1110001001000110100 = .ok (.reservedOp7 0x12 0x34) := by decide

theorem test_decode_cmd : decode Params.default .cmd 0b10000000 = .ok .rdEc ∧ decode Params.default .cmd 0b10000001 = .ok .wrEc := by decide

theorem test_decode_portop :
    decode Params.default .portop 0b00110011011111101 = .ok (.inStatus 0xFD) ∧
    decode Params.default .portop 0b00110001001000110 = .ok (.inData 0x46) ∧
    decode Params.default .portop 0b10110011010000001 = .ok (.outCmd 0x81) ∧
    decode Params.default .portop 0b10110001001111000 = .ok (.outData 0x78) := by decide

theorem test_decode_status :
    decode Params.default .pollIbf 0b11111101 = .ok (.waitIbfClear 0xFD) ∧ decode Params.default .pollObf 0b00000011 = .ok (.waitObfSet 0x03) := by
  decide

theorem test_decode_step_read :
    decode Params.default .step 0b0000 = .ok .stepIdle ∧ decode Params.default .step 0b0001 = .ok .stepR1 ∧ decode Params.default .step 0b0010 = .ok .stepR2 ∧
    decode Params.default .step 0b0011 = .ok .stepR3 ∧ decode Params.default .step 0b0100 = .ok .stepR4 ∧ decode Params.default .step 0b0101 = .ok .stepR5 ∧
    decode Params.default .step 0b0110 = .ok .stepR6 ∧ decode Params.default .step 0b0111 = .ok .stepR7 := by decide

theorem test_decode_step_write :
    decode Params.default .step 0b1001 = .ok .stepW1 ∧ decode Params.default .step 0b1010 = .ok .stepW2 ∧ decode Params.default .step 0b1011 = .ok .stepW3 ∧
    decode Params.default .step 0b1100 = .ok .stepW4 ∧ decode Params.default .step 0b1101 = .ok .stepW5 ∧ decode Params.default .step 0b1110 = .ok .stepW6 ∧
    decode Params.default .step 0b1111 = .ok .stepW7 := by decide

theorem test_decode_rejects :
    decode Params.default .step 0b1000 = .error .stepCodeUnused ∧ decode Params.default .cmd 0x82 = .error .commandUnknown ∧
    decode Params.default .portop 0b00110010000000000 = .error .portUnknown ∧ decode Params.default .pollIbf 0x02 = .error .statusDoesNotSatisfy ∧
    decode Params.default .pollObf 0xFE = .error .statusDoesNotSatisfy ∧ decode Params.default .req (2 ^ 19) = .error .wordTooWide := by decide

/-- The `REQ` words of 95_test_vectors.md: P1, P2, P3, G8. -/
theorem test_encode_vectors :
    encode Params.default (.writeRegister 0x2F 0x03) = 0x12F03 ∧ encode Params.default (.readRegister 0x2F 0x00) = 0x02F00 ∧
    encode Params.default (.tempRead 2 0) = 0x30200 ∧ encode Params.default (.fanLevelWrite 0 0xC0) = 0x400C0 := by decide

/-! ### Table words run as the first instruction after reset -/

theorem test_tableWord_req :
    decodeTableWord 24 0x07800 = some (.readRegister 0x78 0) ∧ decodeTableWord 24 0x71234 = some (.reservedOp7 0x12 0x34)
      ∧ runsFirst 24 0x07800 = true ∧ runsFirst 24 0x12F03 = true ∧ runsFirst 24 0x71234 = true := by decide

theorem test_tableWord_portop :
    decodeTableWord 24 0x06602 = some (.inStatus 0x02) ∧ decodeTableWord 24 0x16278 = some (.outData 0x78) ∧
    runsFirst 24 0x06602 = true ∧ runsFirst 24 0x16278 = true := by decide

theorem test_tableWord_byte :
    decodeTableWord 8 0x80 = some .rdEc ∧ decodeTableWord 8 0x81 = some .wrEc ∧
    decodeTableWord 8 0xFD = some (.waitIbfClear 0xFD) ∧ decodeTableWord 8 0xFF = some (.waitObfSet 0xFF) ∧
    decodeTableWord 8 0x00 = some .stepIdle ∧ decodeTableWord 8 0x07 = some .stepR7 ∧
    decodeTableWord 4 0x01 = some .stepR1 ∧
    runsFirst 8 0x81 = true ∧ runsFirst 8 0xFD = true ∧ runsFirst 8 0xFF = true ∧ runsFirst 8 0x00 = true ∧ runsFirst 8 0x07 = true ∧ runsFirst 4 0x0F = true := by decide

/-- The step placed by a `STEP` word is the one that runs: `R2` sends 0x80 and goes on to `R3`. -/
theorem test_placed_step_runs :
    after (step ((bench []).withFetchWord 8 0x02)) (fun t => (t.step, t.trace)) =
      some (.r3, [{ master := .engine, dir := .write, port := .sc, byte := some 0x80 }]) := by decide

/-- A placed request is accepted: `READ_REGISTER 0x78` latches its offset and starts at `R1`. -/
theorem test_placed_request_runs :
    after (step ((bench []).withFetchWord 24 0x07800)) (fun t => (t.step, t.fe, t.offset, t.busy)) =
      some (.r1, .rawRd, 0x78, true) := by decide

/-- A strobe at an idle engine is taken although another master asks for the ports, whose call then comes next
(10_state.md R16, R22). -/
theorem test_strobe_before_calls :
    after (step { requesting (.readRegister 0x78 0) [] with calls := [{ channel := .cmd, word := 0x80 }] })
      (fun t => (t.step, t.start, t.calls.length, t.trace.length)) = some (.r1, false, 1, 0) := by decide

/-- An answered call is over, and another master's operation is no engine step (10_state.md R14). -/
theorem test_call_runs :
    after (step { benchAt .r1 .rawRd [] with calls := [{ channel := .portop, word := 0x16278 }] })
      (fun t => (t.step, t.calls, t.trace)) =
      some (.r1, [], [{ master := .other, dir := .write, port := .data, byte := some 0x78 }]) := by decide

/-- Two events between two steps (10_state.md R22). -/
theorem test_batch_of_events :
    after (step { bench [] with inputs := [[.writeTimeout 9, .request 0x07800 true], [.palReady false]] })
      (fun t => (t.timeout, t.start, t.inputs)) = some (9, true, [[.palReady false]]) := by decide

/-! ### The port access layer (vectors A1, A2, A4, A7) -/

theorem test_inStatus_masks : ((bench [0x00000102]).ioRead .engine .sc).1 = .ok 0x02 := by decide
theorem test_inData_masks : ((bench [0xFFFFFFFF]).ioRead .engine .data).1 = .ok 0xFF := by decide
theorem test_outData_masks : ((withPlan [.hang] (bench [])).ioWrite .engine .data 0x1FF).2.outstanding =
    some (.engine, { dir := .write, port := .data, addr := 0x62, wdata := 0xFF }) := by decide
theorem test_unavailable : (({ bench [0] with palReady := false } : State).ioRead .engine .sc).1 = .error := by decide

theorem test_inStatus_primitive :
    after (exec (.inStatus 0) (bench [0x102])) (fun t => (t.primResult, t.now)) = some (.port (.ok 0x02), 1) := by decide
theorem test_inData_primitive :
    after (exec (.inData 0) (bench [0x12345600])) (·.primResult) = some (.port (.ok 0x00)) := by decide
theorem test_outCmd_primitive :
    after (exec (.outCmd 0x80) (bench [])) (·.trace) = some [{ master := .other, dir := .write, port := .sc, byte := some 0x80 }] := by
  decide
theorem test_outData_primitive :
    after (exec (.outData 0x2F) (bench [])) (·.trace) = some [{ master := .other, dir := .write, port := .data, byte := some 0x2F }] := by
  decide
theorem test_rdEc :
    after (exec .rdEc (bench [])) (·.trace) = some [{ master := .other, dir := .write, port := .sc, byte := some 0x80 }] := by decide
theorem test_wrEc :
    after (exec .wrEc (bench [])) (·.trace) = some [{ master := .other, dir := .write, port := .sc, byte := some 0x81 }] := by decide

/-! ### Poll iterations (vectors B5, B6, B8, B10), window not over and over -/

theorem test_waitIbfClear :
    after (exec (.waitIbfClear 0) (benchAt .r1 .rawRd [0xFD])) (·.primResult) = some (.poll .satisfied) ∧
    after (exec (.waitIbfClear 0) (benchAt .r1 .rawRd [0xFE])) (·.primResult) = some (.poll .again) := by decide
theorem test_waitObfSet :
    after (exec (.waitObfSet 1) (benchAt .r5 .rawRd [0x03])) (·.primResult) = some (.poll .satisfied) ∧
    after (exec (.waitObfSet 1) { benchAt .r5 .rawRd [0x02] with deadline := 1 }) (·.primResult) =
      some (.poll .timedOut) := by decide

/-! ### Accepting (vectors D0a, D0b, F8 to F10, G3 to G9, I1, I5) -/

theorem test_readRegister :
    after (exec (.readRegister 0x78 0xFF) (bench [])) (fun t => (t.step, t.fe, t.offset, t.deadline)) =
      some (.r1, .rawRd, 0x78, 3) := by decide
theorem test_writeRegister :
    after (exec (.writeRegister 0x2F 0x10) (bench [])) (fun t => (t.step, t.fe, t.offset, t.wdata)) =
      some (.w1, .rawWr, 0x2F, 0x10) := by decide
theorem test_fanRpmRead :
    after (exec (.fanRpmRead 0x12 0x34) (bench [])) (fun t => (t.step, t.fe, t.offset)) =
      some (.r1, .rpmLsb, 0x84) := by decide
theorem test_tempRead_highest :
    after (exec (.tempRead 7 0) (bench [])) (fun t => (t.step, t.fe, t.offset)) = some (.r1, .temp, 0x7F) := by decide
theorem test_tempRead_rejected :
    after (exec (.tempRead 8 0) (bench [])) (fun t => (t.step, t.res, t.done, t.busy)) =
      some (.idle, 0x180000, true, false) := by decide
theorem test_fanLevelWrite_full :
    after (exec (.fanLevelWrite 0 0x40) (bench [])) (fun t => (t.step, t.offset, t.wdata)) =
      some (.w1, 0x2F, 0x40) := by decide
theorem test_fanLevelWrite_rejected :
    after (exec (.fanLevelWrite 0 0x41) (bench [])) (fun t => (t.step, t.res)) = some (.idle, 0x180000) := by decide
theorem test_reservedOps :
    after (exec (.reservedOp5 0x12 0x34) (bench [])) (·.res) = some 0x180000 ∧
    after (exec (.reservedOp6 0x12 0x34) (bench [])) (·.res) = some 0x180000 ∧
    after (exec (.reservedOp7 0x12 0x34) (bench [])) (·.res) = some 0x180000 := by decide
theorem test_request_while_busy :
    after (exec (.writeRegister 0 1) (benchAt .r3 .rawRd [])) (fun t => (t.step, t.fe, t.offset)) =
      some (.r3, .rawRd, 0) := by decide
theorem test_stepIdle :
    after (exec .stepIdle (requesting (.readRegister 0x78 0) [])) (fun t => (t.step, t.offset)) = some (.r1, 0x78) ∧
    after (exec .stepIdle (bench [])) (·.step) = some .idle := by decide

/-! ### The read transaction (examples of 42_read_transaction.md; vectors D1, D9, E, F) -/

theorem test_stepR1 :
    after (exec .stepR1 (benchAt .r1 .rawRd [0x00])) (·.step) = some .r2 ∧
    after (exec .stepR1 (benchAt .r1 .rawRd [0x02])) (·.step) = some .r1 := by decide
theorem test_stepR1_timeout :
    after (exec .stepR1 { benchAt .r1 .rawRd [0x02] with now := 2 }) (fun t => (t.step, t.res)) =
      some (.idle, 0x090000) := by decide
theorem test_stepR2 :
    after (exec .stepR2 { benchAt .r2 .rawRd [] with now := 1 }) (fun t => (t.step, t.deadline)) =
      some (.r3, 5) := by decide
theorem test_stepR3 :
    after (exec .stepR3 { benchAt .r3 .rawRd [0x02] with now := 2 }) (·.res) = some 0x0A0000 := by decide
theorem test_stepR4 :
    after (exec .stepR4 { benchAt .r4 .rawRd [] with offset := 0x78 }) (fun t => (t.step, t.trace)) =
      some (.r5, [{ master := .engine, dir := .write, port := .data, byte := some 0x78 }]) := by decide
theorem test_stepR5 :
    after (exec .stepR5 (benchAt .r5 .rawRd [0x03])) (·.step) = some .r6 ∧
    after (exec .stepR5 { benchAt .r5 .rawRd [0x02] with now := 2 }) (·.res) = some 0x0B0000 := by decide
theorem test_stepR6 :
    after (exec .stepR6 (benchAt .r6 .rawRd [0x46])) (fun t => (t.step, t.rdata)) = some (.r7, 0x46) := by decide
theorem test_stepR7_raw :
    after (exec .stepR7 { benchAt .r7 .rawRd [0xFF] with rdata := 0x80 }) (fun t => (t.res, t.done)) =
      some (0x000080, true) := by decide
theorem test_stepR7_rpm :
    after (exec .stepR7 { benchAt .r7 .rpmMsb [0x00] with rdata := 0xFF, lsb := 0xFF }) (·.res) = some 0x000000 ∧
    after (exec .stepR7 { benchAt .r7 .rpmMsb [0x00] with rdata := 0xFF, lsb := 0xFE }) (·.res) = some 0x00FFFE := by
  decide
theorem test_stepR7_temp :
    after (exec .stepR7 { benchAt .r7 .temp [0x00] with rdata := 0xF6 }) (·.res) = some 0x00FFF6 ∧
    after (exec .stepR7 { benchAt .r7 .temp [0x00] with rdata := 0x80 }) (·.res) = some 0x200000 ∧
    after (exec .stepR7 (withPlan [.fail false] { benchAt .r7 .temp [] with rdata := 0x80 })) (·.res) =
      some 0x100000 := by decide

/-! ### The write transaction (examples of 43_write_transaction.md; vectors D4, D10) -/

theorem test_stepW1 :
    after (exec .stepW1 (benchAt .w1 .rawWr [0x00])) (·.step) = some .w2 ∧
    after (exec .stepW1 { benchAt .w1 .rawWr [0x02] with now := 2 }) (·.res) = some 0x0C0000 := by decide
theorem test_stepW2 :
    after (exec .stepW2 (benchAt .w2 .rawWr [])) (fun t => (t.step, t.trace)) =
      some (.w3, [{ master := .engine, dir := .write, port := .sc, byte := some 0x81 }]) := by decide
theorem test_stepW3 :
    after (exec .stepW3 { benchAt .w3 .rawWr [0x02] with now := 2 }) (·.res) = some 0x0D0000 := by decide
theorem test_stepW4 :
    after (exec .stepW4 { benchAt .w4 .rawWr [] with offset := 0x2F }) (fun t => (t.step, t.trace)) =
      some (.w5, [{ master := .engine, dir := .write, port := .data, byte := some 0x2F }]) := by decide
theorem test_stepW5 :
    after (exec .stepW5 { benchAt .w5 .rawWr [0x02] with now := 2 }) (·.res) = some 0x0E0000 := by decide
theorem test_stepW6 :
    after (exec .stepW6 { benchAt .w6 .rawWr [] with wdata := 0x03 }) (fun t => (t.step, t.trace)) =
      some (.w7, [{ master := .engine, dir := .write, port := .data, byte := some 0x03 }]) := by decide
theorem test_stepW7 :
    after (exec .stepW7 (benchAt .w7 .rawWr [0x00])) (fun t => (t.res, t.done)) = some (0x000000, true) ∧
    after (exec .stepW7 { benchAt .w7 .level [0x02] with now := 2 }) (·.res) = some 0x0F0000 := by decide

/-! ### The curve (vectors H1, H2, H4, H5, H8) and the reference EC (R62, R63) -/

theorem test_curve :
    curveLevel Constants.source defaultCurve (some 60) = 2 ∧ curveLevel Constants.source defaultCurve (some 49) = 0 ∧
    curveLevel Constants.source defaultCurve none = 0x80 ∧ curveLevel Constants.source defaultCurve (some 50) = 1 ∧
    curveLevel Constants.source defaultCurve (some 85) = 7 := by decide

theorem test_reference_consumes_a_value :
    Memory.read (({ RefEc.start with phase := .wrData, addr := 0x2F, pend := some (.data 3), ibf := true } :
      RefEc).progress Constants.source).regs 0x2F = 3 := by decide

/-- The constants of 00_scope.md R4. -/
theorem test_constants :
    (Constants.source.dataPort, Constants.source.scPort, Constants.source.cmdRead, Constants.source.cmdWrite) =
      (0x62, 0x66, 0x80, 0x81) ∧
    (Constants.source.regFanStatus, Constants.source.regRpmLsb, Constants.source.regRpmMsb, Constants.source.tempBase) =
      (0x2F, 0x84, 0x85, 0x78) ∧
    (Constants.source.levelAuto, Constants.source.levelFull, Constants.source.levelMax, Constants.source.sensorMax) =
      (0x80, 0x40, 7, 7) ∧
    (Constants.source.timeoutMs, Constants.source.rpmAbsent, Constants.source.tempAbsent) = (200, 0xFFFF, 0x80) := by
  decide

/-! ### Witnesses: for each statement with hypotheses, states and operands that meet them, clause by clause -/

theorem witness_DecodeOfEncodeIsTheInstruction :
    Params.default.wf = true ∧ swapped.wf = true ∧ (Instr.waitIbfClear 0xFD).WellFormed Params.default = true ∧ (Instr.waitObfSet 0x01).WellFormed Params.default = true ∧
    (Instr.fanLevelWrite 0xFF 0xFF).WellFormed Params.default = true := by decide

theorem witness_EncodeOfDecodeIsTheWord :
    decode Params.default .req (2 ^ 19 - 1) = .ok (.reservedOp7 0xFF 0xFF) ∧ decode Params.default .step 15 = .ok .stepW7 ∧
    decode Params.default .portop 0x166FF = .ok (.outCmd 0xFF) := by decide

theorem witness_EveryRequestWordAndUsedStepCodeDecodes : 2 ^ 19 - 1 < 2 ^ 19 ∧ 15 < 16 ∧ 8 < 16 := by decide

/-- The bench with one call of another master: the command byte 0x80, or one that is no row. -/
def calling (w : Nat) : State := { bench [] with calls := [{ channel := .cmd, word := w }] }

/-- The engine at `R2` with its own write on the bus and a call of another master waiting. -/
def engineOnBus : State :=
  { benchAt .r2 .rawRd [] with
    outstanding := some (.engine, writeRequest Params.default .sc 0x80)
    calls := [{ channel := .cmd, word := 0x81 }] }

/-- Clauses 1, 2, 3: an instruction that goes on, one that faults, a word that is none. -/
theorem witness_StepRunsTheFetchedInstruction_outcomes :
    (∃ t, (bench []).fetch = .ok .stepIdle ∧ exec .stepIdle (bench []) = .next t) ∧
    ((benchAt .r7 .none [0]).fetch = .ok .stepR7 ∧ exec .stepR7 (benchAt .r7 .none [0]) = .fault .noCompletionRule) ∧
    (calling 0x82).fetch = .error .commandUnknown :=
  ⟨⟨bench [], rfl, rfl⟩, ⟨rfl, rfl⟩, rfl⟩

/-- Clauses 4, 5, 6: a strobed request, a call, and no call or the engine's own operation on the bus; a call that is
answered and one that is not. -/
theorem witness_StepRunsTheFetchedInstruction_sources :
    ((requesting .rdEc []).step = .idle ∧ (requesting .rdEc []).busy = false ∧ (requesting .rdEc []).start = true) ∧
    ((calling 0x80).calls = { channel := .cmd, word := 0x80 } :: [] ∧
      ¬((calling 0x80).step = .idle ∧ (calling 0x80).busy = false ∧ (calling 0x80).start = true) ∧
      EngineOffBus (calling 0x80) ∧
      (∃ t r, exec .rdEc (withPlan [.hang] (calling 0x80)) = .next t ∧ t.outstanding = some (.other, r)) ∧
      (∃ t, exec .rdEc (calling 0x80) = .next t ∧ ∀ r, t.outstanding ≠ some (.other, r))) ∧
    (¬((bench []).step = .idle ∧ (bench []).busy = false ∧ (bench []).start = true) ∧ (bench []).calls = []) ∧
    (¬(engineOnBus.step = .idle ∧ engineOnBus.busy = false ∧ engineOnBus.start = true) ∧
      engineOnBus.outstanding = some (.engine, writeRequest Params.default .sc 0x80)) :=
  ⟨by decide, ⟨rfl, by decide, nofun, ⟨_, _, rfl, rfl⟩, ⟨_, rfl, nofun⟩⟩, by decide, by decide, rfl⟩

theorem witness_EnvironmentActsAnyNumberOfTimesBetweenSteps :
    (bench []).loop = none ∧ (bench []).env.clock = .deterministic ∧ (bench []).inputs = [] ∧
    ({ bench [] with inputs := [[.loopStop, .loopTimer], []] } : State).inputs = [.loopStop, .loopTimer] :: [[]] := by
  decide

theorem witness_ResetLeavesTheEngineIdle :
    EngineOffBus (bench []) ∧ (State.reset.calls = [] ∧ State.reset.start = false) ∧
    ((bench []).cfg.k.timeoutMs * (bench []).cfg.tickHz + 999) / 1000 < 2 ^ 32 := ⟨nofun, by decide, by decide⟩

/-- Step `R2` whose write is not answered: busy, with the request in flight; and the same step before the write. -/
theorem witness_ResetMidOperationGivesNoResult :
    after (exec .stepR2 (withPlan [.hang] (benchAt .r2 .rawRd []))) (fun t => (t.busy, t.outstanding)) =
      some (true, some (.engine, writeRequest Params.default .sc 0x80)) ∧
    (benchAt .r2 .rawRd []).busy = true ∧ EngineOffBus (benchAt .r2 .rawRd []) := ⟨by decide, rfl, nofun⟩

/-- Also of the two statements on rejected requests, with `i` = 8, 255 and `l` = 8, 0x41, 0xFF. -/
theorem witness_RequestsAreAccepted :
    (bench []).step = .idle ∧ (bench []).busy = false ∧ (bench []).cfg.hasFrontEnd = true ∧
    (bench []).cfg.k = Constants.source ∧ (0x07 : Byte).toNat ≤ 7 ∧ 7 < (0x08 : Byte).toNat ∧ 7 < (0xFF : Byte).toNat ∧
    (0x07 : Byte).toNat ∈ [0, 1, 2, 3, 4, 5, 6, 7, 0x40, 0x80] ∧
    (0x80 : Byte).toNat ∈ [0, 1, 2, 3, 4, 5, 6, 7, 0x40, 0x80] ∧
    legalLevel Constants.source 0x07 = true ∧ legalLevel Constants.source 0x80 = true ∧ legalLevel Constants.source 0x08 = false ∧ legalLevel Constants.source 0x41 = false ∧
    legalLevel Constants.source 0xFF = false := by decide

/-- A machine without the front end. -/
def rawOnly : State := { bench [] with cfg := { (bench []).cfg with hasFrontEnd := false } }

theorem witness_ReservedOperationCodesAreRejected :
    rawOnly.step = .idle ∧ rawOnly.busy = false ∧ rawOnly.cfg.hasFrontEnd = false := by decide

theorem witness_RequestsWhileBusyAreIgnored :
    (benchAt .r3 .rawRd []).busy = true ∧ (Instr.reservedOp7 0 0).channel = .req ∧
    (benchAt .r3 .rawRd []).loop = none ∧ (benchAt .r3 .rawRd []).inputs = [] := by decide

theorem witness_IdleAcceptsTheStrobedRequest :
    (bench []).start = false ∧ (requesting (.reservedOp7 0xFF 0xFF) []).start = true := by decide

/-- Also of the statements on the primitives: an available mechanism, and one withdrawn while the request waits. -/
theorem witness_PortPasses :
    PortPasses .engine (readRequest (bench [0x1FF]).cfg .sc) (bench [0x1FF]) ∧
    PortPasses .other (writeRequest (bench []).cfg .data 0xFF) (bench []) ∧
    PortPasses .other (readRequest (bench [0]).cfg .data)
      ({ bench [0] with palReady := false, outstanding := some (.other, readRequest (bench [0]).cfg .data) } : State) ∧
    (bench []).env.clock = .deterministic :=
  ⟨⟨.inr ⟨rfl, rfl⟩, rfl⟩, ⟨.inr ⟨rfl, rfl⟩, rfl⟩, ⟨.inl rfl, rfl⟩, rfl⟩

theorem witness_PortsCarryOneByte :
    (withPlan [.hang] (bench [])).outstanding = none ∧
    ((withPlan [.hang] (bench [])).ioWrite .engine .sc 0x1FF).1 = .pending ∧
    (bench [0x100]).env.ecKind = .oracle ∧ (bench [0x100]).env.answers = 0x100 :: [] ∧
    ((bench [0x100]).ioRead .other .sc).1 = .ok 0x00 := by decide

theorem witness_FailedPortOperation :
    BusTakes .engine (readRequest (bench []).cfg .data) (withPlan [.fail true] (bench [])) ∧
    (withPlan [.fail true] (bench [])).mechanism (readRequest (bench []).cfg .data) = .fail true ∧
    BusTakes .other (writeRequest (bench []).cfg .sc 0x80)
      { withPlan [.fail false] (bench []) with outstanding := some (.other, writeRequest (bench []).cfg .sc 0x80) } ∧
    (withPlan [.fail false] (bench [])).mechanism (writeRequest (bench []).cfg .sc 0x80) = .fail false ∧
    ({ bench [] with palReady := false } : State).palReady = false ∧
    ({ bench [] with palReady := false } : State).outstanding = none :=
  ⟨.inr ⟨rfl, rfl⟩, rfl, .inl rfl, rfl, rfl, rfl⟩

/-- The engine's write on the bus and another master's request for the same write. -/
theorem witness_OnePortOperationOnTheBus :
    engineOnBus.outstanding = some (.engine, writeRequest Params.default .sc 0x80) ∧
    (Master.engine, writeRequest Params.default .sc 0x80) ≠ (.other, writeRequest Params.default .sc 0x80) ∧
    engineOnBus.busy = true ∧ isNext (step engineOnBus) = true := by decide

/-- Step `W7` unanswered for two steps while the host withdraws the mechanism and strobes a request and another master
asks for the ports. -/
def unanswered : State :=
  { withPlan [.hang, .hang] (benchAt .w7 .level []) with
    inputs := [[.palReady false, .request 0 true], [.drive { channel := .cmd, word := 0x80 }]] }

theorem witness_UnansweredPortOperationHoldsTheEngine :
    unanswered.calls = [] ∧ unanswered.step ≠ .idle ∧ unanswered.outstanding = none ∧ unanswered.palReady = true ∧
    unanswered.env.plan = List.replicate 2 .hang ++ [] ∧ NoReset unanswered.inputs := by
  refine ⟨rfl, by decide, rfl, rfl, rfl, ?_⟩
  simp [NoReset, unanswered]

/-- A status read whose answer arrives at the deadline (`NOW` = `DEADLINE` = 1), with the flag and without. -/
theorem witness_PollIterationTestsFlagThenWindow :
    (∃ t, ({ bench [0] with deadline := 1 } : State).ioRead .engine .sc = (.ok 0, t) ∧ t.now ≥ t.deadline) ∧
    (((0 : Byte) &&& 0x02) ≠ 0 ↔ false = true) ∧ ¬(((0x02 : Byte) &&& 0x02) ≠ 0 ↔ false = true) ∧
    (∃ t, ({ bench [2] with deadline := 1 } : State).ioRead .engine .sc = (.ok 2, t) ∧ t.now ≥ t.deadline) ∧
    (∃ t, ({ bench [2] with deadline := 2 } : State).ioRead .engine .sc = (.ok 2, t) ∧ ¬t.now ≥ t.deadline) ∧
    (∃ t, (withPlan [.fail false] (bench [])).ioRead .engine .sc = (.error, t)) :=
  ⟨⟨_, rfl, by decide⟩, by decide, by decide, ⟨_, rfl, by decide⟩, ⟨_, rfl, by decide⟩, ⟨_, rfl⟩⟩

theorem witness_PollPrimitivesComplete :
    PortPasses .other (readRequest (bench [0x1FD]).cfg .sc) (bench [0x1FD]) ∧
    (0xFD : Byte) = BitVec.ofNat 8 ((bench [0x1FD]).ecRead .sc).1 :=
  ⟨⟨.inr ⟨rfl, rfl⟩, rfl⟩, by decide⟩

theorem witness_UpperStatusBitsDecideNothing :
    (bench [0xFD]).env.ecKind = .oracle ∧ (bench [0xFD]).env.answers = 0xFD :: [] ∧ (bench [0xFD]).cfg.ibfMask = 0x02 ∧
    (bench [0xFD]).cfg.obfMask = 0x01 ∧ 0xFD % 4 = 0x01 % 4 := by decide

theorem bench_bench (answers : List Nat) : Bench (bench answers) := ⟨rfl, rfl, rfl, rfl, rfl, rfl, rfl, rfl⟩

/-- A window of 3 ticks (three reads), and an empty one (one read). -/
theorem witness_FailingPollMakesExactlyNReads :
    (OracleBench (benchAt .w5 .level [2, 2, 2]) ∧ isPollStep (benchAt .w5 .level [2, 2, 2]).step = true ∧
      1 ≤ (benchAt .w5 .level [2, 2, 2]).cfg.portOpTicks ∧
      (benchAt .w5 .level [2, 2, 2]).deadline =
        (benchAt .w5 .level [2, 2, 2]).now + (benchAt .w5 .level [2, 2, 2]).timeout.toNat ∧
      [2, 2, 2].length = pollReads (benchAt .w5 .level [2, 2, 2]).timeout.toNat
        (benchAt .w5 .level [2, 2, 2]).cfg.portOpTicks ∧
      ∀ w ∈ [2, 2, 2], pollSatisfied (benchAt .w5 .level [2, 2, 2]).cfg .w5 (BitVec.ofNat 8 w) = false) ∧
    [2].length = pollReads 0 1 :=
  ⟨⟨⟨⟨rfl, rfl, rfl, rfl, rfl, rfl, rfl, rfl⟩, rfl⟩, by decide, by decide, by decide, by decide, by decide⟩, by decide⟩

/-- Of the poll steps: satisfied, not satisfied with the window open, not satisfied at the deadline, error, no answer. -/
theorem witness_PollStepSays :
    (∃ t, (bench [0xFD]).ioRead .engine .sc = (.ok 0xFD, t) ∧ pollSatisfied (bench [0xFD]).cfg .r1 0xFD = true) ∧
    (∃ t, (bench [0x03]).ioRead .engine .sc = (.ok 0x03, t) ∧ pollSatisfied (bench [0x03]).cfg .r5 0x03 = true) ∧
    (∃ t, ({ bench [0x02] with deadline := 2 } : State).ioRead .engine .sc = (.ok 0x02, t) ∧
      pollSatisfied (bench []).cfg .r3 0x02 = false ∧ t.now < t.deadline) ∧
    (∃ t, ({ bench [0x02] with deadline := 1 } : State).ioRead .engine .sc = (.ok 0x02, t) ∧
      pollSatisfied (bench []).cfg .w7 0x02 = false ∧ t.deadline ≤ t.now) ∧
    (∃ t, (withPlan [.fail true] (bench [])).ioRead .engine .sc = (.error, t)) ∧
    (∃ t, (withPlan [.hang] (bench [])).ioRead .engine .sc = (.pending, t)) :=
  ⟨⟨_, rfl, by decide⟩, ⟨_, rfl, by decide⟩, ⟨_, rfl, by decide, by decide⟩, ⟨_, rfl, by decide, by decide⟩, ⟨_, rfl⟩,
    ⟨_, rfl⟩⟩

/-- Of the steps that send a byte. -/
theorem witness_WriteStepSays :
    (∃ t, (bench []).ioWrite .engine .sc (0x80 : Byte).toNat = (.ok 0x80, t)) ∧
    (∃ t, (withPlan [.fail true] (bench [])).ioWrite .engine .data (0xFF : Byte).toNat = (.error, t)) ∧
    (∃ t, (withPlan [.hang] (bench [])).ioWrite .engine .data (0x00 : Byte).toNat = (.pending, t)) :=
  ⟨⟨_, rfl⟩, ⟨_, rfl⟩, ⟨_, rfl⟩⟩

/-- Of step `R6`. -/
theorem witness_StepR6TakesTheDataByte :
    (∃ t, (bench [0xFF]).ioRead .engine .data = (.ok 0xFF, t)) ∧
    (∃ t, (withPlan [.fail false] (bench [])).ioRead .engine .data = (.error, t)) ∧
    (∃ t, (withPlan [.hang] (bench [])).ioRead .engine .data = (.pending, t)) :=
  ⟨⟨_, rfl⟩, ⟨_, rfl⟩, ⟨_, rfl⟩⟩

/-- Of step `R7`: each operation in progress, with the raw bytes 0x80 and 0x7F for a temperature. -/
theorem witness_StepR7ClosesTheRead :
    (∃ t, (benchAt .r7 .rawRd [0xFF]).ioRead .engine .sc = (.ok 0xFF, t) ∧ (benchAt .r7 .rawRd [0xFF]).fe = .rawRd) ∧
    (∃ t, (benchAt .r7 .rpmLsb [0]).ioRead .engine .sc = (.ok 0, t) ∧ (benchAt .r7 .rpmLsb [0]).fe = .rpmLsb) ∧
    (∃ t, (benchAt .r7 .rpmMsb [0]).ioRead .engine .sc = (.ok 0, t) ∧ (benchAt .r7 .rpmMsb [0]).fe = .rpmMsb) ∧
    (∃ t, ({ benchAt .r7 .temp [0] with rdata := 0x80 } : State).ioRead .engine .sc = (.ok 0, t) ∧
      ({ benchAt .r7 .temp [0] with rdata := 0x80 } : State).rdata = 0x80) ∧
    (∃ t, ({ benchAt .r7 .temp [0] with rdata := 0x7F } : State).ioRead .engine .sc = (.ok 0, t) ∧
      ({ benchAt .r7 .temp [0] with rdata := 0x7F } : State).rdata ≠ 0x80) :=
  ⟨⟨_, rfl, rfl⟩, ⟨_, rfl, rfl⟩, ⟨_, rfl, rfl⟩, ⟨_, rfl, rfl⟩, ⟨_, rfl, by decide⟩⟩

/-- Of step `W7`. -/
theorem witness_StepW7ConfirmsTheWrite :
    (∃ t, (benchAt .w7 .level [0x01]).ioRead .engine .sc = (.ok 0x01, t) ∧ ibfFlag (benchAt .w7 .level []).cfg 0x01 = false ∧
      (benchAt .w7 .level [0x01]).fe = .level) ∧
    (∃ t, ({ benchAt .w7 .rawWr [0x02] with deadline := 2 } : State).ioRead .engine .sc = (.ok 0x02, t) ∧
      ibfFlag (benchAt .w7 .rawWr []).cfg 0x02 = true ∧ t.now < t.deadline) ∧
    (∃ t, ({ benchAt .w7 .rawWr [0x02] with deadline := 1 } : State).ioRead .engine .sc = (.ok 0x02, t) ∧ t.deadline ≤ t.now) :=
  ⟨⟨_, rfl, by decide, rfl⟩, ⟨_, rfl, by decide, by decide⟩, ⟨_, rfl, by decide⟩⟩

/-- Of the whole read operations: the request strobed on the bench, the flags as asked. -/
theorem witness_ReadOperationsWhole :
    OracleBench (requesting (.tempRead 7 0) [0, 0, 1, 0x80, 0]) ∧
    Requested (reqOf Params.default (.tempRead 7 0)) (requesting (.tempRead 7 0) [0, 0, 1, 0x80, 0]) ∧
    Requested (reqOf Params.default (.readRegister 0xFF 0)) (requesting (.readRegister 0xFF 0) [0, 0, 1, 0x80, 0]) ∧
    Requested (reqOf Params.default (.fanRpmRead 1 2)) (requesting (.fanRpmRead 1 2) [0, 0, 1, 0xFF, 0, 0, 0, 1, 0xFF, 0]) ∧
    (requesting (.tempRead 7 0) [0, 0, 1, 0x80, 0]).cfg.hasFrontEnd = true ∧
    (requesting (.tempRead 7 0) [0, 0, 1, 0x80, 0]).cfg.k = Constants.source ∧
    (requesting (.tempRead 7 0) [0, 0, 1, 0x80, 0]).env.answers = 0 :: 0 :: 1 :: 0x80 :: 0 :: [] ∧
    ibfFlag (bench []).cfg (BitVec.ofNat 8 0) = false ∧ obfFlag (bench []).cfg (BitVec.ofNat 8 1) = true :=
  ⟨⟨⟨rfl, rfl, rfl, rfl, rfl, rfl, rfl, rfl⟩, rfl⟩, ⟨rfl, rfl, rfl, rfl, rfl⟩, ⟨rfl, rfl, rfl, rfl, rfl⟩,
    ⟨rfl, rfl, rfl, rfl, rfl⟩, rfl, rfl, rfl, by decide, by decide⟩

theorem witness_WriteOperationsWhole :
    OracleBench (requesting (.writeRegister 0xFF 0x81) [0, 0, 0, 0]) ∧
    Requested (reqOf Params.default (.writeRegister 0xFF 0x81)) (requesting (.writeRegister 0xFF 0x81) [0, 0, 0, 0]) ∧
    Requested (reqOf Params.default (.fanLevelWrite 0 0x80)) (requesting (.fanLevelWrite 0 0x80) [0, 0, 0, 0]) ∧
    (requesting (.fanLevelWrite 0 0x80) [0, 0, 0, 0]).cfg.hasFrontEnd = true ∧
    (requesting (.fanLevelWrite 0 0x80) [0, 0, 0, 0]).cfg.k = Constants.source ∧
    (requesting (.writeRegister 0xFF 0x81) [0, 0, 0, 0]).env.answers = 0 :: 0 :: 0 :: 0 :: [] :=
  ⟨⟨⟨rfl, rfl, rfl, rfl, rfl, rfl, rfl, rfl⟩, rfl⟩, ⟨rfl, rfl, rfl, rfl, rfl⟩, ⟨rfl, rfl, rfl, rfl, rfl⟩, rfl, rfl, rfl⟩

/-- *Slow(2)* in a window of 3 ticks, the most such a window allows. -/
theorem witness_WriteThenReadReturnsTheByte :
    CleanReferenceBench (reference { RefEc.start with lat := Latency.slow 2 } (requesting (.writeRegister 0xFF 0xFF) [])) ∧
    (bench []).cfg.wf = true ∧ Memory.wf RefEc.start.regs = true ∧ 2 < pollReads (3 : BitVec 32).toNat 1 ∧
    Requested (reqOf Params.default (.writeRegister 0xFF 0xFF))
      (reference { RefEc.start with lat := Latency.slow 2 } (requesting (.writeRegister 0xFF 0xFF) [])) :=
  ⟨⟨⟨rfl, rfl, rfl, rfl, rfl, rfl, rfl, rfl⟩, rfl, rfl, rfl, rfl, rfl, rfl, rfl⟩, by decide, by decide, by decide,
    ⟨rfl, rfl, rfl, rfl, rfl⟩⟩

/-- Of the invariants: a consistent, exclusive state in the middle of a transaction that has kept the handshake. -/
def midRead : State :=
  { benchAt .r2 .rawRd [] with
    trace := [{ master := .engine, dir := .read, port := .sc, byte := some 0 }]
    env := { (bench []).env with answers := [0] } }

theorem witness_Invariants :
    ExclusivePorts midRead ∧ Consistent midRead ∧ CallsDecode midRead ∧ Handshake midRead ∧
    midRead.trace.all (commandKnown midRead.cfg.k) = true ∧ Memory.wf midRead.env.ec.regs = true ∧
    isNext (step midRead) = true :=
  ⟨fun _ => ⟨rfl, nofun⟩, ⟨by decide, by decide, by decide, by decide, by decide, by decide⟩, nofun,
    ⟨by decide, by decide⟩, by decide, by decide, by decide⟩

/-- A level write at its last poll, and the idle machine it ends as. -/
def lastPoll : State := { benchAt .w7 .level [0] with offset := 0x2F }

def ended : State :=
  { lastPoll with
    step := .idle, fe := .none, busy := false, done := true, now := 1
    env := { lastPoll.env with answers := [], draws := 1 }
    trace := [{ master := .engine, dir := .read, port := .sc, byte := some 0 }] }

/-- The run that ends the operation and then has nothing to do. -/
def endingRun : Nat → State
  | 0 => lastPoll
  | _ + 1 => ended

theorem witness_EveryPollAndOperationEndsUnderAFairClock :
    IsRun endingRun ∧ Consistent (endingRun 0) ∧ (∀ n, ExclusivePorts (endingRun n)) ∧ ClockFair endingRun ∧
    PortOpsAnswered endingRun ∧ isPollStep (endingRun 0).step = true ∧ (endingRun 0).busy = true ∧
    (endingRun 0).env.clock = .deterministic ∧ 1 ≤ (endingRun 0).cfg.portOpTicks := by
  refine ⟨?_, ⟨by decide, by decide, by decide, by decide, by decide, by decide⟩, ?_, ?_, ?_, rfl, rfl, rfl, by decide⟩
  · intro n; cases n <;> rfl
  · intro n; cases n <;> exact fun _ => ⟨rfl, nofun⟩
  · intro h
    obtain ⟨n, hn⟩ := h 2
    cases n with
    | zero => exact absurd hn (by decide)
    | succ n => exact absurd (show 2 ≤ ended.trace.countP isEngineStatusRead from hn) (by decide)
  · intro n; exact ⟨n, Nat.le_refl n, by cases n <;> rfl⟩

theorem witness_CompletionWithoutAnOperationStops :
    (∃ t, (benchAt .r7 .level [0]).ioRead .engine .sc = (.ok 0, t) ∧ (benchAt .r7 .level [0]).fe = .level) ∧
    (∃ t, (benchAt .w7 .temp [0]).ioRead .engine .sc = (.ok 0, t) ∧ ibfFlag (benchAt .w7 .temp [0]).cfg 0 = false ∧
      (benchAt .w7 .temp [0]).fe = .temp) ∧
    isFault (exec .stepR7 (benchAt .r7 .level [0])) = true :=
  ⟨⟨_, rfl, rfl⟩, ⟨_, rfl, by decide, rfl⟩, by decide⟩

/-- Of the statements on the moves of `STEP` and on the frames: a fetched step that goes on. -/
theorem witness_StepRegisterMovesAsTheTableSays :
    (benchAt .r7 .rpmLsb [0]).fetch = .ok .stepR7 ∧
    (∃ t, exec .stepR7 (benchAt .r7 .rpmLsb [0]) = .next t ∧ t.step = .r1 ∧ t.offset ≠ (benchAt .r7 .rpmLsb [0]).offset) ∧
    ownChannel Instr.stepR7.channel = true ∧ (calling 0x80).fetch = .ok .rdEc ∧ ownChannel Instr.rdEc.channel = false ∧
    isNext (exec .rdEc (calling 0x80)) = true :=
  ⟨rfl, ⟨_, rfl, by decide, by decide⟩, by decide, rfl, by decide, by decide⟩

/-- Of the four clauses on who writes the data registers, each with a write that changes its register. -/
theorem witness_DataRegistersAreWrittenOnlyByTheirSteps :
    after (exec (.writeRegister 1 2) (bench [])) (fun t => (t.offset, t.wdata)) = some (1, 2) ∧
    after (exec .stepR6 (benchAt .r6 .rawRd [3])) (·.rdata) = some 3 ∧
    after (exec .stepR7 { benchAt .r7 .rpmLsb [0] with rdata := 4 }) (·.lsb) = some 4 := by decide

theorem witness_ResultsAreWrittenOnlyOnCompletion :
    ∃ t, exec (.tempRead 8 0) (bench []) = .next t ∧ t.res ≠ (bench []).res := ⟨_, rfl, by decide⟩

theorem witness_NowNeverDecreases : isNext (step (benchAt .r1 .rawRd [0])) = true := by decide

theorem witness_AtMostOnePortOperationPerStep :
    isNext (step (benchAt .r1 .rawRd [0])) = true ∧ (bench []).calls = [] ∧ (bench []).step = .idle ∧
    isNext (step (bench [])) = true := by decide

/-- The reference EC about to take a value byte 0xFF at offset 0xFF; offset 0 is the one left alone. -/
def aboutToStore : State :=
  reference { RefEc.start with ibf := true, pend := some (.data 0xFF), phase := .wrData, addr := 0xFF } (bench [])

theorem witness_EcRegisterStoreAndFrame :
    isNext (exec (.inStatus 0) aboutToStore) = true ∧ aboutToStore.env.ec.addr.toNat ≠ 0 ∧
    PortPasses .other (readRequest aboutToStore.cfg .sc) aboutToStore ∧ aboutToStore.env.ecKind = .reference ∧
    aboutToStore.env.ec.stuck0 = false ∧ aboutToStore.env.ec.ibf = true ∧ aboutToStore.env.ec.delay = some 0 ∧
    aboutToStore.env.ec.pend = some (.data 0xFF) ∧ aboutToStore.env.ec.phase = .wrData ∧
    Memory.wf aboutToStore.env.ec.regs = true :=
  ⟨by decide, by decide, ⟨.inr ⟨rfl, rfl⟩, rfl⟩, rfl, rfl, rfl, rfl, rfl, rfl, rfl⟩

theorem witness_CurveGivesTheHighestThresholdsLevel :
    ((50 : Int), (1 : Byte)) ∈ defaultCurve ∧ (50 : Int) ≤ 50 ∧
    ∀ p ∈ defaultCurve, p.1 ≤ (50 : Int) → p.1 < 50 ∨ p = (50, 1) := by decide

/-- A control loop attached to an idle engine. -/
def looping (phase : LoopPhase) (stop : Bool) (last : Option Byte) : State :=
  { bench [] with
    loop := some { ControlLoop.begun LoopConfig.default last with phase := phase, stop := stop }
    done := true
    res := 0x00003C }

/-- The loop's write of level 2 in progress, and in the next batch another host's strobe and then a reset. -/
def writingLoop (phase : LoopPhase) : State :=
  { benchAt .w5 .level [0] with
    offset := 0x2F
    wdata := 2
    loop := (looping phase false none).loop
    inputs := [[.request 0x12F03 true, .reset false]] }

/-- 60 degrees read: level 2, once already written and once not. -/
theorem witness_ControlLoopWritesOnlyOnChange :
    (looping .waiting false none).busy = false ∧ (looping .waiting false none).start = false ∧ (looping .waiting true none).busy = false ∧
    (looping .reading false none).done = true ∧
    tempReading (looping .reading false none).res = some (some 60) ∧
    tempReading (0x100000 : BitVec 22) = none ∧ (looping (.writing 2) false none).done = true ∧
    some (2 : Byte) = some (curveLevel Constants.source defaultCurve (some 60)) ∧
    (none : Option Byte) ≠ some (curveLevel Constants.source defaultCurve (some 60)) := by decide

/-- Batches without a reset, and none at all. -/
theorem witness_OnlyResetTouchesTheOperationInProgress :
    (∀ batch rest, unanswered.inputs = batch :: rest → NoReset [batch]) ∧
    (∀ batch rest, (bench []).inputs = batch :: rest → NoReset [batch]) := by
  constructor
  · rintro batch rest h
    simp only [unanswered, List.cons.injEq] at h
    obtain ⟨rfl, -⟩ := h
    simp [NoReset]
  · intro batch rest h
    cases h

theorem witness_ControlLoopHoldsTheHandleAndItsRequest :
    (bench []).loop = none ∧ (looping .restoring true none).busy = false ∧ (looping .restoring true none).done = true ∧
    (looping .restoring true none).start = false ∧ (looping .waiting false none).loopTimer.start = true ∧
    ((looping .waiting false none).loopTimer.loop.map (·.strobes)) = some true ∧
    (looping .waiting false none).loopTimer.step = .idle ∧ (looping .waiting false none).loopTimer.busy = false ∧
    ((writingLoop (.writing 2)).loop.map (fun l => (l.strobes, l.phase))) = some (false, .writing 2) := by
  decide

/-- Of the last clause: the loop's own write of level 2 in progress, with another host's request and a reset to come. -/
theorem witness_ControlLoopWaitsForItsOwnOperation :
    Consistent (writingLoop (.writing 2)) ∧ LoopFits (writingLoop (.writing 2)) ∧
    isNext (step (writingLoop (.writing 2))) = true := by
  refine ⟨⟨by decide, by decide, by decide, by decide, by decide, by decide⟩, ?_, by decide⟩
  rintro l ⟨⟩
  exact ⟨nofun, fun _ _ => ⟨rfl, rfl, rfl⟩⟩

/-- Another host's strobe while the loop's operation runs, then a reset: the loop waits for its timer, remembers nothing
and keeps the handle, and the other host's request stands (45_consumers.md R163, R167). -/
theorem test_reset_takes_the_loops_operation :
    after (step (writingLoop (.writing 2))) (fun t => (t.loop.map (fun l => (l.phase, l.lastLevel)), t.start, t.busy)) =
      some (some (.waiting, none), true, false) ∧
    after (step (writingLoop .restoring)) (fun t => (t.loop.map (·.phase), t.palReady)) =
      some (some .waiting, true) := by decide

end Sys2Proof.Tests
end

section
/-! PROOFS. Words on the bus and the status byte of the reference EC, read back. -/

namespace Sys2Proof

theorem Params.byte_lt_bus (p : Params) (b : Byte) : b.toNat < 2 ^ p.busBits :=
  Nat.lt_of_lt_of_le b.isLt (Nat.pow_le_pow_right (by decide) (Nat.le_max_left 8 p.portBusWidth))

theorem Params.cmdWrite_ne_cmdRead {cfg : Params} (hwf : cfg.wf = true) : cfg.k.cmdWrite ≠ cfg.k.cmdRead := by
  simp only [Params.wf, Bool.and_eq_true, bne_iff_ne] at hwf
  obtain ⟨⟨⟨⟨⟨-, hcmd⟩, -⟩, -⟩, -⟩, -⟩ := hwf
  exact hcmd.symm

theorem Params.one_le_portOpTicks {cfg : Params} (hwf : cfg.wf = true) : 1 ≤ cfg.portOpTicks := by
  simp only [Params.wf, Bool.and_eq_true, decide_eq_true_eq] at hwf
  obtain ⟨⟨⟨⟨⟨⟨-, hticks⟩, -⟩, -⟩, -⟩, -⟩, -⟩ := hwf
  exact hticks

end Sys2Proof

namespace Sys2Proof.Machine

/-- The byte a write request drives is the byte given (30_encoding.md R85). -/
theorem lowByte_writeRequest (p : Params) (port : Port) (b : Byte) : lowByte (writeRequest p port b).wdata = b := by
  apply BitVec.eq_of_toNat_eq
  simp [lowByte, writeRequest, Nat.mod_eq_of_lt (p.byte_lt_bus b)]

/-- A byte crosses the bus unharmed, whatever the bus's width (30_encoding.md R85). -/
theorem lowByte_onBus (p : Params) (b : Byte) : lowByte (p.onBus b.toNat) = b := by
  simp [lowByte, Params.onBus, Nat.mod_eq_of_lt (p.byte_lt_bus b)]

theorem zext16_eq_ofNat (b : Byte) : zext16 b = BitVec.ofNat 16 b.toNat := by
  apply BitVec.eq_of_toNat_eq
  simp [zext16]

/-- The masks with exactly one bit set. -/
def oneBitMasks : List Byte := [0x01, 0x02, 0x04, 0x08, 0x10, 0x20, 0x40, 0x80]

theorem mem_oneBitMasks_of_oneBit : ∀ {m : Byte}, oneBit m = true → m ∈ oneBitMasks := by decide

theorem flagOf_maskIf_or_maskIf {m k : Byte} (hm : oneBit m = true) (hk : oneBit k = true) (hne : m ≠ k) (a b : Bool) :
    flagOf (maskIf a m ||| maskIf b k) m = a ∧ flagOf (maskIf a m ||| maskIf b k) k = b := by
  have hall : ∀ m ∈ oneBitMasks, ∀ k ∈ oneBitMasks, m ≠ k → ∀ a b,
      flagOf (maskIf a m ||| maskIf b k) m = a ∧ flagOf (maskIf a m ||| maskIf b k) k = b := by decide
  exact hall m (mem_oneBitMasks_of_oneBit hm) k (mem_oneBitMasks_of_oneBit hk) hne a b

/-- The flags of the reference EC's status byte are its own (20_memory.md R62). -/
theorem RefEc.flags_status {cfg : Params} (hwf : cfg.wf = true) (e : RefEc) :
    obfFlag cfg (e.status cfg) = e.obf ∧ ibfFlag cfg (e.status cfg) = (e.ibf || e.stuck0) := by
  simp only [Params.wf, Bool.and_eq_true, bne_iff_ne] at hwf
  obtain ⟨⟨⟨⟨⟨⟨⟨⟨hobf, hibf⟩, hne⟩, -⟩, -⟩, -⟩, -⟩, -⟩, -⟩ := hwf
  exact flagOf_maskIf_or_maskIf hobf hibf hne _ _

end Sys2Proof.Machine
end

section
/-! PROOFS. What the reference EC has made of a byte once it has consumed it (20_memory.md R62, R63). -/

namespace Sys2Proof.Machine

/-- The byte as it stands pending, by the port it was written to. -/
def pendingAt : Port → Byte → Pending
  | .sc, b => .cmd b
  | .data, b => .data b

theorem RefEc.ioWrite_eq (e : RefEc) (p : Port) (b : Byte) : e.ioWrite p b = e.hostWrite (pendingAt p b) := by
  cases p <;> rfl

/-- The EC after its pending byte has waited out its latency and is consumed. -/
def RefEc.settle (k : Constants) (e : RefEc) : RefEc := ({ e with delay := some 0 } : RefEc).consume k

/-- The EC after a byte was written and consumed. -/
def RefEc.deliver (k : Constants) (p : Port) (b : Byte) (e : RefEc) : RefEc := (e.ioWrite p b).settle k

/-- The EC waits for a byte in `phase`: nothing pending, never stuck, no violation, latency *Slow(n)* (20_memory.md R64),
its output buffer full or not as `obf` says, its registers `regs`. -/
structure RefEc.Waits (n : Nat) (obf : Bool) (phase : Phase) (regs : Memory) (e : RefEc) : Prop where
  ibf : e.ibf = false
  obf : e.obf = obf
  phase : e.phase = phase
  regs : e.regs = regs
  stuck0 : e.stuck0 = false
  violation : e.violation = false
  lat : e.lat = Latency.slow n

@[simp] theorem Latency.slow_at (n k : Nat) : (Latency.slow n).at k = some n := rfl

/-- Taking a byte touches nothing of the EC's handshake, latency or violation record (20_memory.md R63). -/
theorem RefEc.take_eq (k : Constants) (e : RefEc) (p : Option Pending) :
    e.take k p = { e with regs := (e.take k p).regs, obf := (e.take k p).obf, dout := (e.take k p).dout,
                          phase := (e.take k p).phase, addr := (e.take k p).addr } := by
  unfold RefEc.take
  split
  · rfl
  · split <;> [rfl; (split <;> rfl)]
  · split <;> rfl

/-- Delivering a byte is taking it, the write counted, the handshake released. -/
theorem RefEc.deliver_eq (k : Constants) (p : Port) (b : Byte) (e : RefEc) :
    e.deliver k p b =
      { e.take k (some (pendingAt p b)) with
        violation := e.violation || e.ibf, nwrites := e.nwrites + 1, pend := none, ibf := false, delay := some 0 } := by
  unfold RefEc.deliver RefEc.settle
  rw [RefEc.ioWrite_eq]
  unfold RefEc.consume RefEc.hostWrite RefEc.take
  cases p with
  | sc => simp only [pendingAt]; split <;> [rfl; (split <;> rfl)]
  | data => simp only [pendingAt]; split <;> rfl

section
variable {n : Nat} {obf : Bool} {phase : Phase} {regs : Memory} {e : RefEc}

/-- A delivered byte finds the EC waiting again, as taking the byte left it. -/
theorem RefEc.Waits.deliver (h : e.Waits n obf phase regs) {k : Constants} {p : Port} {b : Byte} {t : RefEc}
    (ht : e.take k (some (pendingAt p b)) = t) : (e.deliver k p b).Waits n t.obf t.phase t.regs := by
  rw [RefEc.deliver_eq, e.take_eq k, ht]
  exact ⟨rfl, rfl, rfl, rfl, h.stuck0, by simp [h.violation, h.ibf], h.lat⟩

theorem RefEc.Waits.deliver_cmdRead (h : e.Waits n obf phase regs) (k : Constants) :
    (e.deliver k .sc k.cmdRead).Waits n obf .rdAddr regs := by
  have ht : e.take k (some (pendingAt .sc k.cmdRead)) = { e with phase := .rdAddr } := by simp [RefEc.take, pendingAt]
  simpa [h.obf, h.regs] using h.deliver ht

theorem RefEc.Waits.deliver_cmdWrite (h : e.Waits n obf phase regs) {k : Constants} (hk : k.cmdWrite ≠ k.cmdRead) :
    (e.deliver k .sc k.cmdWrite).Waits n obf .wrAddr regs := by
  have ht : e.take k (some (pendingAt .sc k.cmdWrite)) = { e with phase := .wrAddr } := by
    simp [RefEc.take, pendingAt, hk]
  simpa [h.obf, h.regs] using h.deliver ht

/-- Taking the output byte empties the buffer and changes nothing else (20_memory.md R62). -/
theorem RefEc.Waits.emptied (h : e.Waits n obf phase regs) : ({ e with obf := false } : RefEc).Waits n false phase regs :=
  ⟨h.ibf, rfl, h.phase, h.regs, h.stuck0, h.violation, h.lat⟩

/-- A read's offset fills the output buffer with the addressed byte. -/
theorem RefEc.Waits.deliver_rdAddr (h : e.Waits n obf .rdAddr regs) (k : Constants) (o : Byte) :
    (e.deliver k .data o).Waits n true .idle regs ∧ (e.deliver k .data o).dout = Memory.read regs o.toNat := by
  have ht : e.take k (some (pendingAt .data o)) =
      { e with dout := Memory.read regs o.toNat, obf := true, phase := .idle } := by
    simp [RefEc.take, pendingAt, h.phase, h.regs]
  refine ⟨by simpa [h.regs] using h.deliver ht, ?_⟩
  rw [RefEc.deliver_eq, ht]

theorem RefEc.Waits.deliver_wrAddr (h : e.Waits n obf .wrAddr regs) (k : Constants) (o : Byte) :
    (e.deliver k .data o).Waits n obf .wrData regs ∧ (e.deliver k .data o).addr = o := by
  have ht : e.take k (some (pendingAt .data o)) = { e with addr := o, phase := .wrData } := by
    simp [RefEc.take, pendingAt, h.phase]
  refine ⟨by simpa [h.obf, h.regs] using h.deliver ht, ?_⟩
  rw [RefEc.deliver_eq, ht]

/-- A write's data byte is stored at the offset sent before it. -/
theorem RefEc.Waits.deliver_wrData (h : e.Waits n obf .wrData regs) (k : Constants) (v : Byte) :
    (e.deliver k .data v).Waits n obf .idle (Memory.write regs e.addr.toNat v) := by
  have ht : e.take k (some (pendingAt .data v)) =
      { e with regs := Memory.write regs e.addr.toNat v, phase := .idle } := by
    simp [RefEc.take, pendingAt, h.phase, h.regs]
  simpa [h.obf] using h.deliver ht

end

/-- A status read of an EC with nothing pending changes nothing (20_memory.md R62). -/
theorem RefEc.progress_of_ibf_clear (k : Constants) {e : RefEc} (h : e.ibf = false) : e.progress k = e := by
  simp [RefEc.progress, h]

theorem RefEc.progress_of_delay_zero (k : Constants) {e : RefEc} (h : e.ibf = true) (hd : e.delay = some 0) :
    e.progress k = e.settle k := by
  have he : ({ e with delay := some 0 } : RefEc) = e := by rw [← hd]
  unfold RefEc.settle
  rw [he]
  simp [RefEc.progress, h, hd]

theorem RefEc.progress_of_delay_succ (k : Constants) {e : RefEc} {j : Nat} (h : e.ibf = true)
    (hd : e.delay = some (j + 1)) : e.progress k = { e with delay := some j } := by
  simp [RefEc.progress, h, hd]

@[simp] theorem RefEc.consume_stuck0 (k : Constants) (e : RefEc) : (e.consume k).stuck0 = e.stuck0 := by
  unfold RefEc.consume
  rw [e.take_eq k e.pend]

@[simp] theorem RefEc.settle_stuck0 (k : Constants) (e : RefEc) : (e.settle k).stuck0 = e.stuck0 :=
  RefEc.consume_stuck0 k _

/-- The EC's own flag shows what the poll of a step waits for (41_polling.md R112, R113). -/
def RefEc.shows (st : Step) (e : RefEc) : Bool :=
  match st with
  | .r5 => e.obf
  | _ => !e.ibf

/-- An EC that waits for a byte shows every poll its flag, the poll for OBF only with its output buffer full. -/
theorem RefEc.Waits.shows {n : Nat} {obf : Bool} {phase : Phase} {regs : Memory} {e : RefEc}
    (h : e.Waits n obf phase regs) {st : Step} (hst : st = .r5 → obf = true) : e.shows st = true := by
  cases st <;> simp [RefEc.shows, h.ibf, h.obf, hst]

end Sys2Proof.Machine
end

section
/-! PROOFS. A port operation and a step on a bench, where nobody but the engine acts. -/

namespace Sys2Proof.Machine

/-- `s` after the engine's port operations `ops` (newest first) in deterministic time, the reference EC left as `ec`, the
sequencer at `st` with window end `d`. -/
def State.advanced (s : State) (ops : List PortEvent) (ec : RefEc) (st : Step) (d : Nat) : State :=
  { s with
    step := st
    deadline := d
    now := s.now + ops.length * s.cfg.portOpTicks
    env := { s.env with ec := ec, draws := s.env.draws + ops.length }
    trace := ops ++ s.trace }

theorem State.advanced_advanced (s : State) (ops ops' : List PortEvent) (ec ec' : RefEc) (st st' : Step) (d d' : Nat) :
    (s.advanced ops ec st d).advanced ops' ec' st' d' = s.advanced (ops' ++ ops) ec' st' d' := by
  simp [State.advanced, Nat.add_mul, Nat.add_assoc, Nat.add_comm]

/-- What a poll step does once its flag is seen: the next step, or at `W7` the completion (R121, R123, R125 and
R131, R133, R135, R137). -/
def pollNext : Step → State → State
  | .r1 => State.goto .r2
  | .r3 => State.goto .r4
  | .r5 => State.goto .r6
  | .w1 => State.goto .w2
  | .w3 => State.goto .w4
  | .w5 => State.goto .w6
  | .w7 => State.complete .ok .none 0
  | _ => id

/-- What a sending step writes, where, and the poll step it enters (42_read_transaction.md R122, R124,
43_write_transaction.md R132, R134, R136). -/
def sendOf (s : State) : Option (Port × Byte × Step) :=
  match s.step with
  | .r2 => some (.sc, s.cfg.k.cmdRead, .r3)
  | .r4 => some (.data, s.offset, .r5)
  | .w2 => some (.sc, s.cfg.k.cmdWrite, .w3)
  | .w4 => some (.data, s.offset, .w5)
  | .w6 => some (.data, s.wdata, .w7)
  | _ => none

/-- A request word is the encoded instruction, cut nowhere (30_encoding.md R74). -/
theorem reqOf_toNat (p : Params) (i : Instr) (h : encode p i < 2 ^ 19) : (reqOf p i).toNat = encode p i :=
  (BitVec.toNat_ofNat _ _).trans (Nat.mod_eq_of_lt h)

theorem decode_reqOf_readRegister (p : Params) (o x : Byte) :
    decode p .req (reqOf p (.readRegister o x)).toNat = .ok (.readRegister o x) := by
  have hlt := Laws.FitsFormat.readRegister o x p
  obtain ⟨ho, hx, hop⟩ := byteOf_reqWord 0 o x
  rw [reqOf_toNat p _ hlt, decode_req hlt]
  simp only [encode, decodeReq, hop, ho, hx]

theorem decode_reqOf_writeRegister (p : Params) (o v : Byte) :
    decode p .req (reqOf p (.writeRegister o v)).toNat = .ok (.writeRegister o v) := by
  have hlt := Laws.FitsFormat.writeRegister o v p
  obtain ⟨ho, hv, hop⟩ := byteOf_reqWord 1 o v
  rw [reqOf_toNat p _ hlt, decode_req hlt]
  simp only [encode, decodeReq, hop, ho, hv]

end Sys2Proof.Machine

namespace Sys2Proof.Safety

open Sys2Proof.Machine

/-- On a bench nothing but the end of a strobe happens between two steps. -/
theorem Bench.betweenSteps_eq {s : State} (h : Bench s) : s.betweenSteps = { s with start := false } := by
  obtain ⟨-, hinputs, hloop, hclock, -, -, -, -⟩ := h
  unfold State.betweenSteps
  rw [State.endStrobe_noLoop hloop]
  simp [State.loopReact, hloop, State.elapse, hclock, State.applyBatch, hinputs]

/-- On a bench every port operation is answered at once (20_memory.md R62, 60_exceptions.md R201). -/
theorem Bench.portOp_eq {s : State} (h : Bench s) (m : Master) (r : PortRequest) {w : Nat} {ec : RefEc}
    (hreach : s.reachEc r = (w, { s.env with ec := ec })) :
    s.portOp m r =
      (.ok (eventByte r w),
        s.advanced [{ master := m, dir := r.dir, port := r.port, byte := some (eventByte r w) }] ec s.step
          s.deadline) := by
  obtain ⟨-, -, -, hclock, hplan, hreliable, hready, hout⟩ := h
  rw [State.portOp_pass (by simp [State.busHeld, hout]) (by simp [State.palRefuses, hready])
    (by simp [State.mechanism, hplan, hreliable]), hreach]
  simp [State.answered, State.usePlan, State.elapse, hclock, hplan, hout, State.advanced]

/-- A read at the reference EC takes the byte the EC answers (20_memory.md R62). -/
theorem Bench.ioRead_eq {s : State} (h : Bench s) (hec : s.env.ecKind = .reference) (m : Master) (p : Port) :
    s.ioRead m p =
      (.ok (s.env.ec.ioRead s.cfg p).1,
        s.advanced [{ master := m, dir := .read, port := p, byte := some (s.env.ec.ioRead s.cfg p).1 }]
          (s.env.ec.ioRead s.cfg p).2 s.step s.deadline) := by
  have hreach : s.reachEc (readRequest s.cfg p) =
      (s.cfg.onBus (s.env.ec.ioRead s.cfg p).1.toNat, { s.env with ec := (s.env.ec.ioRead s.cfg p).2 }) := by
    simp [State.reachEc, readRequest, State.ecRead, hec]
  have hbyte : eventByte (readRequest s.cfg p) (s.cfg.onBus (s.env.ec.ioRead s.cfg p).1.toNat) =
      (s.env.ec.ioRead s.cfg p).1 := lowByte_onBus _ _
  rw [State.ioRead, h.portOp_eq m _ hreach, hbyte]
  rfl

/-- A write puts the byte before the reference EC (20_memory.md R62). -/
theorem Bench.ioWrite_eq {s : State} (h : Bench s) (hec : s.env.ecKind = .reference) (m : Master) (p : Port) (b : Byte) :
    s.ioWrite m p b.toNat =
      (.ok b, s.advanced [{ master := m, dir := .write, port := p, byte := some b }] (s.env.ec.ioWrite p b) s.step
        s.deadline) := by
  have hlow : lowByte b.toNat = b := by simp [lowByte]
  have hreach : s.reachEc (writeRequest s.cfg p b) = (0, { s.env with ec := s.env.ec.ioWrite p b }) := by
    have hwritten := lowByte_writeRequest s.cfg p b
    unfold State.reachEc State.ecWrite
    rw [hwritten]
    simp [writeRequest, hec]
  have hbyte : eventByte (writeRequest s.cfg p b) 0 = b := lowByte_writeRequest _ _ _
  rw [State.ioWrite, hlow, h.portOp_eq m _ hreach, hbyte]
  rfl

/-- On a bench a step without a strobe runs what `STEP` names (10_state.md R13, R22). -/
theorem Bench.step_eq {s t : State} {i : Instr} (h : Bench s) (hs : s.start = false)
    (hi : decode s.cfg .step (stepCode s.step).toNat = .ok i) (hx : exec i s = .next t) :
    step s = .next t.betweenSteps := by
  obtain ⟨hcalls, -⟩ := h
  have hnext : s.nextCall = none := by simp [State.nextCall, hcalls]
  have hfetch : s.fetch = .ok i := by simp [State.fetch, State.accepts, hs, hnext, hi]
  simp [step, hfetch, hx, State.retire, hnext]

/-- A step with a strobe at an idle engine runs the request (44_derived_operations.md R140). -/
theorem Requested.step_eq {s t : State} {i : Instr} {w : BitVec 19} (h : Requested w s)
    (hi : decode s.cfg .req w.toNat = .ok i) (hx : exec i s = .next t) : step s = .next t.betweenSteps := by
  obtain ⟨hidle, -, hbusy, hstart, rfl⟩ := h
  have haccepts : s.accepts = true := by simp [State.accepts, hidle, hbusy, hstart]
  have hfetch : s.fetch = .ok i := by simp [State.fetch, haccepts, hi]
  simp [step, hfetch, hx, State.retire, State.nextCall, haccepts]

theorem pollStep_waitIbfClear {s t : State} {b : Byte} (h : s.ioRead .engine .sc = (.ok b, t)) (stage : Stage)
    (next : State → State) :
    pollStep stage next (s.waitIbfClear .engine) =
      if !ibfFlag s.cfg b then next t else if t.deadline ≤ t.now then t.failWith .ecTimeout stage else t := by
  rw [State.waitIbfClear, State.pollIteration_ok h]
  cases hf : flagOf b s.cfg.ibfMask with
  | false => simp [ibfFlag, hf, pollStep]
  | true => by_cases hd : t.deadline ≤ t.now <;> simp [ibfFlag, hf, hd, pollStep]

theorem pollStep_waitObfSet {s t : State} {b : Byte} (h : s.ioRead .engine .sc = (.ok b, t)) (stage : Stage)
    (next : State → State) :
    pollStep stage next (s.waitObfSet .engine) =
      if obfFlag s.cfg b then next t else if t.deadline ≤ t.now then t.failWith .ecTimeout stage else t := by
  rw [State.waitObfSet, State.pollIteration_ok h]
  cases hf : flagOf b s.cfg.obfMask with
  | false => by_cases hd : t.deadline ≤ t.now <;> simp [obfFlag, hf, hd, pollStep]
  | true => simp [obfFlag, hf, pollStep]

theorem writeCompletion_eq : ∀ {fe : Fe}, (writeCompletion fe).isSome = true →
    writeCompletion fe = some (State.complete .ok .none 0)
  | .rawWr, _ => rfl
  | .level, _ => rfl

theorem execStepW7_eq {s : State} (h : (writeCompletion s.fe).isSome = true) :
    execStepW7 s = .next (pollStep .ibfAfterData (State.complete .ok .none 0) (s.waitIbfClear .engine)) := by
  unfold execStepW7
  rw [writeCompletion_eq h]

/-- Every poll step decides by the answer of its status read as 41_polling.md R110 says. -/
theorem exec_pollStep {s t : State} {b : Byte} (hp : isPollStep s.step = true) (hfe : feFits s.step s.fe = true)
    (h : s.ioRead .engine .sc = (.ok b, t)) :
    ∃ i, decode s.cfg .step (stepCode s.step).toNat = .ok i ∧
      exec i s = .next (if pollSatisfied s.cfg s.step b then pollNext s.step t
        else if t.deadline ≤ t.now then t.failWith .ecTimeout (pollStage s.step) else t) := by
  cases hst : s.step <;> rw [hst] at hp hfe <;> cases hp
  case r1 => exact ⟨.stepR1, rfl, congrArg _ (pollStep_waitIbfClear h _ _)⟩
  case r3 => exact ⟨.stepR3, rfl, congrArg _ (pollStep_waitIbfClear h _ _)⟩
  case r5 => exact ⟨.stepR5, rfl, congrArg _ (pollStep_waitObfSet h _ _)⟩
  case w1 => exact ⟨.stepW1, rfl, congrArg _ (pollStep_waitIbfClear h _ _)⟩
  case w3 => exact ⟨.stepW3, rfl, congrArg _ (pollStep_waitIbfClear h _ _)⟩
  case w5 => exact ⟨.stepW5, rfl, congrArg _ (pollStep_waitIbfClear h _ _)⟩
  case w7 => exact ⟨.stepW7, rfl, (execStepW7_eq hfe).trans (congrArg _ (pollStep_waitIbfClear h _ _))⟩

/-- Every sending step enters its poll once its byte is answered. -/
theorem exec_sendOf {s t : State} {p : Port} {b a : Byte} {st : Step} (hsend : sendOf s = some (p, b, st))
    (h : s.ioWrite .engine p b.toNat = (.ok a, t)) :
    ∃ i, decode s.cfg .step (stepCode s.step).toNat = .ok i ∧ exec i s = .next (t.enterPoll st) := by
  have hport : portStep (fun _ => State.enterPoll st) (s.ioWrite .engine p b.toNat) = t.enterPoll st := by rw [h]; rfl
  unfold sendOf at hsend
  cases hst : s.step <;> rw [hst] at hsend <;> cases hsend
  case r2 => exact ⟨.stepR2, rfl, congrArg _ hport⟩
  case r4 => exact ⟨.stepR4, rfl, congrArg _ hport⟩
  case w2 => exact ⟨.stepW2, rfl, congrArg _ hport⟩
  case w4 => exact ⟨.stepW4, rfl, congrArg _ hport⟩
  case w6 => exact ⟨.stepW6, rfl, congrArg _ hport⟩

end Sys2Proof.Safety
end

section
/-! PROOFS. An operation under way against a *Slow(n)* reference EC: a poll outlasts the latency, and so each byte the
engine sends is consumed (20_memory.md R65). -/

namespace Sys2Proof.Safety

open Sys2Proof.Machine

/-- One or more steps of the machine. -/
def Reaches : State → State → Prop := Relation.TransGen fun s t => step s = .next t

theorem run_succ_of_step {M : Host.Core} {s t : M.State} (h : M.step s = .next t) (k : Nat) :
    M.run (k + 1) s = M.run k t := by
  rw [Host.Core.run, h]

theorem Reaches.run {s t : State} (h : Reaches s t) : ∃ k, 0 < k ∧ Sys2Proof.core.run k s = .next t := by
  induction h using Relation.TransGen.head_induction_on with
  | single hstep => exact ⟨1, Nat.one_pos, run_succ_of_step (M := Sys2Proof.core) hstep 0⟩
  | head hstep _ ih =>
    obtain ⟨k, -, hk⟩ := ih
    exact ⟨k + 1, Nat.succ_pos k, (run_succ_of_step (M := Sys2Proof.core) hstep k).trans hk⟩

/-- Between two steps of an operation on a reference bench whose windows allow more than `n` reads. -/
structure Underway (n : Nat) (s : State) : Prop where
  bench : Bench s
  start : s.start = false
  reference : s.env.ecKind = .reference
  wf : s.cfg.wf = true
  window : n < pollReads s.timeout.toNat s.cfg.portOpTicks

theorem Underway.advanced {n : Nat} {s : State} (h : Underway n s) (ops : List PortEvent) (ec : RefEc) (st : Step)
    (d : Nat) : Underway n (s.advanced ops ec st d) :=
  ⟨h.bench, h.start, h.reference, h.wf, h.window⟩

theorem Underway.after_poll {n : Nat} {s : State} (h : Underway n s) (st : Step) : Underway n (pollNext st s) := by
  cases st <;> exact ⟨h.bench, h.start, h.reference, h.wf, h.window⟩

theorem Underway.step_eq {n : Nat} {s t : State} {i : Instr} (h : Underway n s) (ht : Underway n t)
    (hi : decode s.cfg .step (stepCode s.step).toNat = .ok i) (hx : exec i s = .next t) : step s = .next t := by
  rw [h.bench.step_eq h.start hi hx, ht.bench.betweenSteps_eq, ← ht.start]

/-- The window of a poll of *Slow(n)* is not over after `n` reads that see nothing (41_polling.md R114). -/
theorem Underway.window_outlasts {n : Nat} {s : State} (h : Underway n s) :
    n = 0 ∨ n * s.cfg.portOpTicks < s.timeout.toNat := by
  have hticks := Params.one_le_portOpTicks h.wf
  have hreads := h.window
  rcases Nat.eq_zero_or_pos n with hn | hn
  · exact .inl hn
  · right
    have hdiv : n + 1 ≤ (s.timeout.toNat + s.cfg.portOpTicks - 1) / s.cfg.portOpTicks := by
      unfold pollReads at hreads; omega
    have hmul := (Nat.le_div_iff_mul_le hticks).mp hdiv
    rw [Nat.add_mul, Nat.one_mul] at hmul
    omega

/-! ### One step -/

/-- At a poll step of an operation, the EC not stuck. -/
structure Polling (n : Nat) (s : State) : Prop extends Underway n s where
  poll : isPollStep s.step = true
  fe : feFits s.step s.fe = true
  stuck0 : s.env.ec.stuck0 = false

/-- The step of a poll whose status read leaves the EC as `ec`: it sees what it waits for, or it stays in its window. -/
theorem Polling.step_eq {n : Nat} {s : State} (h : Polling n s) {ec : RefEc} (hec : s.env.ec.progress s.cfg.k = ec)
    (hstuck : ec.stuck0 = false) :
    ∃ op, (ec.shows s.step = true → step s = .next (pollNext s.step (s.advanced [op] ec s.step s.deadline))) ∧
      (ec.shows s.step = false → s.now + s.cfg.portOpTicks < s.deadline →
        step s = .next (s.advanced [op] ec s.step s.deadline)) := by
  obtain ⟨hu, hp, hfe, hs⟩ := h
  have hread := hu.bench.ioRead_eq hu.reference .engine .sc
  have hanswer : s.env.ec.ioRead s.cfg .sc = (ec.status s.cfg, ec) := by simp [RefEc.ioRead, hs, hec]
  rw [hanswer] at hread
  have hshows : pollSatisfied s.cfg s.step (ec.status s.cfg) = ec.shows s.step := by
    obtain ⟨hobf, hibf⟩ := RefEc.flags_status hu.wf ec
    cases s.step <;> simp [pollSatisfied, RefEc.shows, hobf, hibf, hstuck]
  obtain ⟨i, hi, hx⟩ := exec_pollStep hp hfe hread
  rw [hshows] at hx
  refine ⟨{ master := .engine, dir := .read, port := .sc, byte := some (ec.status s.cfg) }, fun hseen => ?_,
    fun hunseen hwindow => ?_⟩
  · rw [if_pos hseen] at hx
    exact hu.step_eq ((hu.advanced _ _ _ _).after_poll _) hi hx
  · have hopen : ¬s.deadline ≤ s.now + 1 * s.cfg.portOpTicks := by omega
    rw [hunseen, if_neg Bool.false_ne_true] at hx
    exact hu.step_eq (hu.advanced _ _ _ _) hi (hx.trans (congrArg _ (if_neg hopen)))

/-- The step that sends a byte puts it before the EC and enters its poll. -/
theorem Underway.step_send {n : Nat} {s : State} (h : Underway n s) {p : Port} {b : Byte} {st : Step}
    (hsend : sendOf s = some (p, b, st)) :
    ∃ op d, d = s.now + s.cfg.portOpTicks + s.timeout.toNat ∧
      step s = .next (s.advanced [op] (s.env.ec.ioWrite p b) st d) := by
  obtain ⟨i, hi, hx⟩ := exec_sendOf hsend (h.bench.ioWrite_eq h.reference .engine p b)
  refine ⟨_, _, ?_, h.step_eq (h.advanced _ _ _ _) hi hx⟩
  simp [State.advanced]

/-! ### Poll and round -/

/-- A poll of an EC with nothing pending sees its flag in its first read. -/
theorem Polling.reaches_of_ibf_clear {n : Nat} {s : State} (h : Polling n s) (hibf : s.env.ec.ibf = false)
    (hshows : s.env.ec.shows s.step = true) :
    ∃ op, Reaches s (pollNext s.step (s.advanced [op] s.env.ec s.step s.deadline)) := by
  obtain ⟨op, hseen, -⟩ := h.step_eq (RefEc.progress_of_ibf_clear s.cfg.k hibf) h.stuck0
  exact ⟨op, .single (hseen hshows)⟩

/-- A poll of an EC whose pending byte waits `j` more reads outlasts them, if its window does (20_memory.md R65). -/
theorem Polling.reaches_settled {n j : Nat} {s : State} (h : Polling n s) (hibf : s.env.ec.ibf = true)
    (hobf : s.env.ec.obf = false) (hdelay : s.env.ec.delay = some j)
    (hwindow : j = 0 ∨ s.now + j * s.cfg.portOpTicks < s.deadline)
    (hshows : (s.env.ec.settle s.cfg.k).shows s.step = true) :
    ∃ ops, ops ≠ [] ∧
      Reaches s (pollNext s.step (s.advanced ops (s.env.ec.settle s.cfg.k) s.step s.deadline)) := by
  induction j generalizing s with
  | zero =>
    obtain ⟨op, hseen, -⟩ := h.step_eq (RefEc.progress_of_delay_zero s.cfg.k hibf hdelay)
      (by rw [RefEc.settle_stuck0, h.stuck0])
    exact ⟨[op], by simp, .single (hseen hshows)⟩
  | succ j ih =>
    have hspan : s.now + (j * s.cfg.portOpTicks + s.cfg.portOpTicks) < s.deadline := by
      rcases hwindow with hj | hlt
      · cases hj
      · rwa [Nat.succ_mul] at hlt
    obtain ⟨op, -, hunseen⟩ := h.step_eq (RefEc.progress_of_delay_succ s.cfg.k hibf hdelay) h.stuck0
    have hdark : ({ s.env.ec with delay := some j } : RefEc).shows s.step = false := by
      cases s.step <;> simp [RefEc.shows, hibf, hobf]
    have hstep := hunseen hdark (by omega)
    have hpoll : Polling n (s.advanced [op] { s.env.ec with delay := some j } s.step s.deadline) :=
      ⟨h.toUnderway.advanced _ _ _ _, h.poll, h.fe, h.stuck0⟩
    obtain ⟨ops, -, hreach⟩ := ih hpoll hibf hobf rfl (.inr (by simp [State.advanced]; omega)) hshows
    refine ⟨ops ++ [op], by simp, .head hstep ?_⟩
    rw [← State.advanced_advanced]
    exact hreach

/-- One round of a transaction: a byte is sent, and the poll after it sees it consumed (20_memory.md R65). -/
theorem Underway.reaches_delivered {n : Nat} {s : State} {p : Port} {b : Byte} {st : Step} {phase phase' : Phase}
    {regs regs' : Memory} {obf : Bool} (h : Underway n s) (hec : s.env.ec.Waits n false phase regs)
    (hec' : (s.env.ec.deliver s.cfg.k p b).Waits n obf phase' regs') (hsend : sendOf s = some (p, b, st))
    (hp : isPollStep st = true) (hfe : feFits st s.fe = true) (hr5 : st = .r5 → obf = true) :
    ∃ ops d, 2 ≤ ops.length ∧ Reaches s (pollNext st (s.advanced ops (s.env.ec.deliver s.cfg.k p b) st d)) := by
  obtain ⟨op, d, hd, hstep⟩ := h.step_send hsend
  have hwrite := s.env.ec.ioWrite_eq p b
  have hpoll : Polling n (s.advanced [op] (s.env.ec.ioWrite p b) st d) :=
    ⟨h.advanced _ _ _ _, hp, hfe, by rw [hwrite]; exact hec.stuck0⟩
  have hdelay : (s.env.ec.ioWrite p b).delay = some n := by rw [hwrite]; simp [RefEc.hostWrite, hec.lat]
  have hwindow : n = 0 ∨ (s.advanced [op] (s.env.ec.ioWrite p b) st d).now + n * s.cfg.portOpTicks < d := by
    have houtlasts := h.window_outlasts
    simp [State.advanced]; omega
  obtain ⟨ops, hops, hreach⟩ :=
    hpoll.reaches_settled (by rw [hwrite]; rfl) (by rw [hwrite]; exact hec.obf) hdelay hwindow (hec'.shows hr5)
  have hlength : 2 ≤ (ops ++ [op]).length := by
    have := List.length_pos_iff.mpr hops
    simp; omega
  refine ⟨ops ++ [op], d, hlength, .head hstep ?_⟩
  rw [← State.advanced_advanced]
  exact hreach

end Sys2Proof.Safety
end

section
/-! PROOFS. The two raw operations whole, against a *Slow(n)* reference EC (20_memory.md R65). -/

namespace Sys2Proof.Safety

open Sys2Proof.Machine

/-- A clean *Slow(n)* reference EC on a bench whose windows allow more than `n` reads. -/
structure Ready (n : Nat) (s : State) : Prop where
  clean : CleanReferenceBench s
  wf : s.cfg.wf = true
  lat : s.env.ec.lat = Latency.slow n
  window : n < pollReads s.timeout.toNat s.cfg.portOpTicks

theorem Ready.waits {n : Nat} {s : State} (h : Ready n s) : s.env.ec.Waits n false .idle s.env.ec.regs := by
  obtain ⟨-, -, hibf, hobf, -, hphase, hstuck, hviol⟩ := h.clean
  exact ⟨hibf, hobf, hphase, rfl, hstuck, hviol, h.lat⟩

/-- From `s` the engine ends its operation with `Ok` and `data` in `t`, after at least seven port operations; the EC is
clean again and holds `regs`. -/
structure Completes (n : Nat) (s : State) (data : Half) (regs : Memory) (t : State) : Prop where
  reached : Reaches s t
  ready : Ready n t
  idle : t.step = .idle
  fe : t.fe = .none
  busy : t.busy = false
  done : t.done = true
  res : t.res = packRes .ok .none data
  regs : t.env.ec.regs = regs
  ops : s.trace.length + 7 ≤ t.trace.length

/-- The completion of an operation under way, once the EC waits for the next command. -/
theorem Underway.completes {n : Nat} {s b : State} {ops : List PortEvent} {ec : RefEc} {regs : Memory} {st : Step}
    {d : Nat} {data : Half} (h : Underway n b) (hec : ec.Waits n false .idle regs) (hpend : ec.pend = none)
    (hreach : Reaches s ((b.advanced ops ec st d).complete .ok .none data)) (hops : 7 ≤ ops.length)
    (htrace : b.trace = s.trace) :
    Completes n s data regs ((b.advanced ops ec st d).complete .ok .none data) where
  reached := hreach
  ready := ⟨⟨h.bench, h.reference, hec.ibf, hec.obf, hpend, hec.phase, hec.stuck0, hec.violation⟩, h.wf, hec.lat,
    h.window⟩
  idle := rfl
  fe := rfl
  busy := rfl
  done := rfl
  res := rfl
  regs := hec.regs
  ops := by simp [State.advanced, htrace]; omega

/-- From `s` the machine comes to step `st`, the EC as `ec`, after at least `m` port operations. -/
def Comes (s : State) (m : Nat) (ec : RefEc) (st : Step) : Prop :=
  ∃ ops d, m ≤ ops.length ∧ Reaches s (s.advanced ops ec st d)

section
variable {n m : Nat} {s : State}

/-- The first poll of a transaction, the EC waiting for a byte, takes one read. -/
theorem Underway.comes_from_first_poll {regs : Memory} {st : Step} (h : Underway n s)
    (hec : s.env.ec.Waits n false .idle regs) (hp : isPollStep s.step = true) (hfe : feFits s.step s.fe = true)
    (hr5 : s.step ≠ .r5) (hnext : pollNext s.step = State.goto st) : Comes s 1 s.env.ec st := by
  obtain ⟨op, hreach⟩ :=
    Polling.reaches_of_ibf_clear ⟨h, hp, hfe, hec.stuck0⟩ hec.ibf (hec.shows fun hst => absurd hst hr5)
  rw [hnext] at hreach
  exact ⟨[op], s.deadline, Nat.le_refl 1, hreach⟩

/-- A further round of a transaction. -/
theorem Comes.round {ec : RefEc} {st st' : Step} {p : Port} {b : Byte} {phase phase' : Phase} {regs regs' : Memory}
    {obf : Bool} (h : Comes s m ec st) (hu : Underway n s) (hec : ec.Waits n false phase regs)
    (hec' : (ec.deliver s.cfg.k p b).Waits n obf phase' regs')
    (hsend : ∀ ops d, sendOf (s.advanced ops ec st d) = some (p, b, st')) (hp : isPollStep st' = true)
    (hfe : feFits st' s.fe = true) (hr5 : st' = .r5 → obf = true) :
    ∃ ops d, m + 2 ≤ ops.length ∧ Reaches s (pollNext st' (s.advanced ops (ec.deliver s.cfg.k p b) st' d)) := by
  obtain ⟨ops, d, hm, hreach⟩ := h
  obtain ⟨ops', d', hm', hreach'⟩ :=
    (hu.advanced ops ec st d).reaches_delivered hec hec' (hsend ops d) hp hfe hr5
  refine ⟨ops' ++ ops, d', by simp; omega, hreach.trans ?_⟩
  rw [← s.advanced_advanced ops ops' ec _ st st' d d']
  exact hreach'

end

/-! ### `WRITE_REGISTER` -/

/-- The machine once `WRITE_REGISTER o, v` is accepted, its strobe over. -/
def writeAccepted (o v : Byte) (s : State) : State := { s.beginWrite .rawWr o v with start := false }

theorem Bench.step_writeRegister {s : State} {o v : Byte} (h : Bench s)
    (hreq : Requested (reqOf s.cfg (.writeRegister o v)) s) : step s = .next (writeAccepted o v s) := by
  have hexec : exec (.writeRegister o v) s = .next (s.beginWrite .rawWr o v) := by
    obtain ⟨hidle, -, hbusy, -⟩ := hreq
    simp [exec, execWriteRegister, State.acceptWith, hidle, hbusy, acceptWrite]
  have hbench : Bench (s.beginWrite .rawWr o v) := h
  rw [hreq.step_eq (decode_reqOf_writeRegister s.cfg o v) hexec, hbench.betweenSteps_eq]
  rfl

theorem Ready.writeRegister_completes {n : Nat} {s : State} {o v : Byte} (h : Ready n s)
    (hreq : Requested (reqOf s.cfg (.writeRegister o v)) s) :
    ∃ t, Completes n s 0 (Memory.write s.env.ec.regs o.toNat v) t := by
  obtain ⟨hbench, hkind, -⟩ := h.clean
  have hu : Underway n (writeAccepted o v s) := ⟨hbench, rfl, hkind, h.wf, h.window⟩
  have hcmd := h.waits.deliver_cmdWrite (Params.cmdWrite_ne_cmdRead h.wf)
  obtain ⟨haddr, hoffset⟩ := hcmd.deliver_wrAddr s.cfg.k o
  have hdata := haddr.deliver_wrData s.cfg.k v
  rw [hoffset] at hdata
  have hw2 : Comes (writeAccepted o v s) 1 s.env.ec .w2 := hu.comes_from_first_poll h.waits rfl rfl nofun rfl
  have hw4 : Comes (writeAccepted o v s) 3 _ .w4 := hw2.round (st' := .w3) hu h.waits hcmd (fun _ _ => rfl) rfl rfl nofun
  have hw6 : Comes (writeAccepted o v s) 5 _ .w6 := hw4.round (st' := .w5) hu hcmd haddr (fun _ _ => rfl) rfl rfl nofun
  obtain ⟨ops, d, hops, hreach⟩ := hw6.round (st' := .w7) hu haddr hdata (fun _ _ => rfl) rfl rfl nofun
  exact ⟨_, hu.completes hdata rfl (.head (hbench.step_writeRegister hreq) hreach) hops rfl⟩

/-! ### `READ_REGISTER` -/

/-- The machine once `READ_REGISTER o` is accepted, its strobe over. -/
def readAccepted (o : Byte) (s : State) : State := { s.beginRead .rawRd o with start := false }

theorem Bench.step_readRegister {s : State} {o x : Byte} (h : Bench s)
    (hreq : Requested (reqOf s.cfg (.readRegister o x)) s) : step s = .next (readAccepted o s) := by
  have hexec : exec (.readRegister o x) s = .next (s.beginRead .rawRd o) := by
    obtain ⟨hidle, -, hbusy, -⟩ := hreq
    simp [exec, execReadRegister, State.acceptWith, hidle, hbusy, acceptRead]
  have hbench : Bench (s.beginRead .rawRd o) := h
  rw [hreq.step_eq (decode_reqOf_readRegister s.cfg o x) hexec, hbench.betweenSteps_eq]
  rfl

theorem Underway.withRdata {n : Nat} {s : State} (h : Underway n s) (b : Byte) : Underway n { s with rdata := b } :=
  ⟨h.bench, h.start, h.reference, h.wf, h.window⟩

theorem Underway.completed {n : Nat} {s : State} (h : Underway n s) (data : Half) :
    Underway n (s.complete .ok .none data) :=
  ⟨h.bench, h.start, h.reference, h.wf, h.window⟩

/-- `R6` takes the EC's output byte (42_read_transaction.md R126). -/
theorem Underway.step_takes {n : Nat} {s : State} (h : Underway n s) (hst : s.step = .r6) :
    ∃ op, step s = .next
      (({ s with rdata := s.env.ec.dout } : State).advanced [op] { s.env.ec with obf := false } .r7 s.deadline) := by
  have hread : s.ioRead .engine .data = _ := h.bench.ioRead_eq h.reference .engine .data
  have hexec : exec .stepR6 s = .next (portStep (fun b t => ({ t with rdata := b } : State).goto .r7)
      (s.ioRead .engine .data)) := rfl
  rw [hread] at hexec
  exact ⟨_, h.step_eq ((h.withRdata _).advanced _ _ _ _) (by rw [hst]; rfl) hexec⟩

/-- `R7` reads the status once more and ends a raw read with the byte taken (42_read_transaction.md R127). -/
theorem Underway.step_closes {n : Nat} {s : State} (h : Underway n s) (hst : s.step = .r7) (hfe : s.fe = .rawRd)
    (hstuck : s.env.ec.stuck0 = false) (hibf : s.env.ec.ibf = false) :
    ∃ op, step s = .next ((s.advanced [op] s.env.ec .r7 s.deadline).complete .ok .none (zext16 s.rdata)) := by
  have hread := h.bench.ioRead_eq h.reference .engine .sc
  have hanswer : s.env.ec.ioRead s.cfg .sc = (s.env.ec.status s.cfg, s.env.ec) := by
    simp [RefEc.ioRead, hstuck, RefEc.progress_of_ibf_clear _ hibf]
  rw [hanswer, hst] at hread
  have hexec : exec .stepR7 s = .next (portStep (fun _ u => u.complete .ok .none (zext16 u.rdata))
      (s.ioRead .engine .sc)) := by
    simp only [exec, execStepR7, hfe, readCompletion]
  rw [hread] at hexec
  exact ⟨_, h.step_eq ((h.advanced _ _ _ _).completed _) (by rw [hst]; rfl) hexec⟩

/-- The end of a raw read: `R6` and `R7`, with one port operation each. -/
theorem Underway.reaches_read_end {n : Nat} {s : State} (h : Underway n s) (hst : s.step = .r6) (hfe : s.fe = .rawRd)
    (hstuck : s.env.ec.stuck0 = false) (hibf : s.env.ec.ibf = false) :
    ∃ ops, ops.length = 2 ∧
      Reaches s ((({ s with rdata := s.env.ec.dout } : State).advanced ops { s.env.ec with obf := false } .r7
        s.deadline).complete .ok .none (zext16 s.env.ec.dout)) := by
  obtain ⟨op, htakes⟩ := h.step_takes hst
  have hr7 : Underway n (({ s with rdata := s.env.ec.dout } : State).advanced [op] { s.env.ec with obf := false } .r7
      s.deadline) := (h.withRdata _).advanced _ _ _ _
  obtain ⟨op', hcloses⟩ := hr7.step_closes rfl hfe hstuck hibf
  refine ⟨[op', op], rfl, .head htakes (.single ?_)⟩
  rw [hcloses, State.advanced_advanced]
  rfl

theorem Comes.read_end {n m : Nat} {s : State} {ec : RefEc} {regs : Memory} (h : Comes s m ec .r6) (hu : Underway n s)
    (hfe : s.fe = .rawRd) (hec : ec.Waits n true .idle regs) :
    ∃ ops d, m + 2 ≤ ops.length ∧
      Reaches s ((({ s with rdata := ec.dout } : State).advanced ops { ec with obf := false } .r7 d).complete .ok .none
        (zext16 ec.dout)) := by
  obtain ⟨ops, d, hm, hreach⟩ := h
  obtain ⟨ops', hm', hreach'⟩ := (hu.advanced ops ec .r6 d).reaches_read_end rfl hfe hec.stuck0 hec.ibf
  refine ⟨ops' ++ ops, d, by simp; omega, hreach.trans ?_⟩
  rw [← State.advanced_advanced _ ops ops' ec _ .r6 _ d]
  exact hreach'

theorem Ready.readRegister_completes {n : Nat} {s : State} {o x : Byte} (h : Ready n s)
    (hreq : Requested (reqOf s.cfg (.readRegister o x)) s) :
    ∃ t, Completes n s (zext16 (Memory.read s.env.ec.regs o.toNat)) s.env.ec.regs t := by
  obtain ⟨hbench, hkind, -⟩ := h.clean
  have hu : Underway n (readAccepted o s) := ⟨hbench, rfl, hkind, h.wf, h.window⟩
  have hcmd := h.waits.deliver_cmdRead s.cfg.k
  obtain ⟨haddr, hdout⟩ := hcmd.deliver_rdAddr s.cfg.k o
  have hr2 : Comes (readAccepted o s) 1 s.env.ec .r2 := hu.comes_from_first_poll h.waits rfl rfl nofun rfl
  have hr4 : Comes (readAccepted o s) 3 _ .r4 := hr2.round (st' := .r3) hu h.waits hcmd (fun _ _ => rfl) rfl rfl nofun
  have hr6 : Comes (readAccepted o s) 5 _ .r6 :=
    hr4.round (st' := .r5) hu hcmd haddr (fun _ _ => rfl) rfl rfl fun _ => rfl
  obtain ⟨ops, d, hops, hreach⟩ := hr6.read_end hu rfl haddr
  rw [← hdout]
  exact ⟨_, (hu.withRdata _).completes haddr.emptied rfl
    (.head (hbench.step_readRegister hreq) hreach) hops rfl⟩

/-- Settles O38: each operation's polls outlast the EC's latency, so every byte sent is consumed in the phase that expects
it; the write leaves the EC as clean as the read needs it. -/
theorem writeThenReadReturnsTheByte : Obligations.WriteThenReadReturnsTheByte := by
  unfold Obligations.WriteThenReadReturnsTheByte
  intro s n o v x hclean hwf hlat hregs hwindow hreq
  obtain ⟨t, hwrite⟩ := Ready.writeRegister_completes ⟨hclean, hwf, hlat, hwindow⟩ hreq
  have hread : Memory.read t.env.ec.regs o.toNat = v := by rw [hwrite.regs]; exact Memory.read_write_same hregs _ _
  have hready : Ready n (t.submit (.readRegister o x)) :=
    ⟨hwrite.ready.clean, hwrite.ready.wf, hwrite.ready.lat, hwrite.ready.window⟩
  obtain ⟨t', hback⟩ := hready.readRegister_completes ⟨hwrite.idle, hwrite.fe, hwrite.busy, rfl, rfl⟩
  obtain ⟨k, hk, hrun⟩ := hwrite.reached.run
  obtain ⟨k', hk', hrun'⟩ := hback.reached.run
  have hres : t'.res = packRes .ok .none (zext16 v) := by rw [← hread]; exact hback.res
  exact ⟨k, t, hk, hrun, hwrite.ops, hwrite.busy, hwrite.done, hwrite.res, hread, hwrite.ready.waits.violation,
    k', t', hk', hrun', hback.ops, hback.busy, hback.done, hres.trans (by rw [zext16_eq_ofNat]),
    hback.ready.waits.violation⟩

end Sys2Proof.Safety
end

section
/-! PROOFS. The accept step of a request, by what it does at an idle engine, and the requests that are rejected there. -/

namespace Sys2Proof.Machine

/-- An idle engine takes the accept step (10_state.md R22). -/
theorem State.acceptWith_idle {s : State} (hstep : s.step = .idle) (hbusy : s.busy = false) (f : State → State) :
    s.acceptWith f = f s := by
  unfold State.acceptWith
  rw [if_pos ⟨hstep, hbusy⟩]

/-! ### The `REQ` rows, operands they ignore dropped (30_encoding.md R87, R88) -/

theorem exec_readRegister (o b : Byte) (s : State) :
    exec (.readRegister o b) s = .next (s.acceptWith (acceptRead o)) := rfl

theorem exec_fanRpmRead (a b : Byte) (s : State) : exec (.fanRpmRead a b) s = .next (s.acceptWith acceptRpm) := rfl

theorem exec_tempRead (i b : Byte) (s : State) : exec (.tempRead i b) s = .next (s.acceptWith (acceptTemp i)) := rfl

theorem exec_fanLevelWrite (a l : Byte) (s : State) :
    exec (.fanLevelWrite a l) s = .next (s.acceptWith (acceptLevel l)) := rfl

theorem exec_reservedOp5 (a b : Byte) (s : State) : exec (.reservedOp5 a b) s = .next (s.acceptWith State.reject) := rfl

theorem exec_reservedOp6 (a b : Byte) (s : State) : exec (.reservedOp6 a b) s = .next (s.acceptWith State.reject) := rfl

theorem exec_reservedOp7 (a b : Byte) (s : State) : exec (.reservedOp7 a b) s = .next (s.acceptWith State.reject) := rfl

/-! ### Without the front end the derived operations are rejected, whatever their operands (30_encoding.md R87) -/

theorem acceptRpm_noFrontEnd {s : State} (h : s.cfg.hasFrontEnd = false) : acceptRpm s = s.reject := by
  simp [acceptRpm, h]

theorem acceptTemp_noFrontEnd {s : State} (h : s.cfg.hasFrontEnd = false) (i : Byte) : acceptTemp i s = s.reject := by
  simp [acceptTemp, h]

theorem acceptLevel_noFrontEnd {s : State} (h : s.cfg.hasFrontEnd = false) (l : Byte) : acceptLevel l s = s.reject := by
  simp [acceptLevel, h]

end Sys2Proof.Machine

namespace Sys2Proof.Safety

open Sys2Proof.Machine

/-- Settles O12: an idle engine takes each of these requests, and its accept step is `State.reject`. -/
theorem reservedOperationCodesAreRejected : Obligations.ReservedOperationCodesAreRejected := by
  unfold Obligations.ReservedOperationCodesAreRejected
  refine ⟨fun s a b hstep hbusy => ?_, by decide⟩
  have haccept := State.acceptWith_idle hstep hbusy
  rw [exec_reservedOp5, exec_reservedOp6, exec_reservedOp7, haccept]
  refine ⟨rfl, rfl, rfl, fun hfe => ?_⟩
  rw [exec_fanRpmRead, exec_tempRead, exec_fanLevelWrite, haccept, haccept, haccept, acceptRpm_noFrontEnd hfe,
    acceptTemp_noFrontEnd hfe, acceptLevel_noFrontEnd hfe]
  exact ⟨rfl, rfl, rfl⟩

/-- Settles O15: the accept steps of these four operations do not take the ignored fields as operands. -/
theorem ignoredRequestFieldsHaveNoEffect : Obligations.IgnoredRequestFieldsHaveNoEffect := by
  unfold Obligations.IgnoredRequestFieldsHaveNoEffect
  intro s x y a b
  refine ⟨?_, ?_, ?_, ?_⟩
  · rw [exec_readRegister, exec_readRegister]
  · rw [exec_tempRead, exec_tempRead]
  · rw [exec_fanRpmRead, exec_fanRpmRead]
  · rw [exec_fanLevelWrite, exec_fanLevelWrite]

end Sys2Proof.Safety
end

section
/-! PROOFS. What crosses the port bus is one byte, and an address of one byte, in both directions (30_encoding.md R85). -/

namespace Sys2Proof

theorem Params.byte_lt_addr (p : Params) (b : Byte) : b.toNat < 2 ^ p.addrBits :=
  Nat.lt_of_lt_of_le b.isLt (Nat.pow_le_pow_right (by decide) (Nat.le_max_left 8 p.portAddrWidth))

/-- No width of the address bus cuts a port's address. -/
theorem Params.portAddress_eq (p : Params) (port : Port) : p.portAddress port = (port.address p.k).toNat := by
  simp [Params.portAddress, Nat.mod_eq_of_lt (p.byte_lt_addr _)]

end Sys2Proof

namespace Sys2Proof.Machine

theorem lowByte_toNat (v : Nat) : (lowByte v).toNat = v % 256 := BitVec.toNat_ofNat v 8

theorem lowByte_mod (v : Nat) : lowByte (v % 256) = lowByte v := by
  apply BitVec.eq_of_toNat_eq
  rw [lowByte_toNat, lowByte_toNat, Nat.mod_mod]

/-- The bus is at least a byte wide, so no width of it cuts the low byte of a word. -/
theorem lowByte_onBus_word (p : Params) (w : Nat) : lowByte (p.onBus w) = lowByte w := by
  have hdvd : 2 ^ 8 ∣ 2 ^ p.busBits := Nat.pow_dvd_pow 2 (Nat.le_max_left 8 p.portBusWidth)
  apply BitVec.eq_of_toNat_eq
  rw [lowByte_toNat, lowByte_toNat, Params.onBus]
  exact Nat.mod_mod_of_dvd w hdvd

theorem writeRequest_wdata (p : Params) (port : Port) (b : Byte) : (writeRequest p port b).wdata = b.toNat := by
  simp [writeRequest, Nat.mod_eq_of_lt (p.byte_lt_bus b)]

/-- On a free bus an operation that waits for its answer is the one outstanding (40_port_access.md R105). -/
theorem State.outstanding_of_portOp_pending {s t : State} {m : Master} {r : PortRequest} (hfree : s.outstanding = none)
    (h : s.portOp m r = (.pending, t)) : t.outstanding = some (m, r) := by
  rcases s.portOp_cases m r with ⟨-, q, hheld, -⟩ | ⟨k, -⟩ | ⟨u, k, -, -, -, -, hout, -⟩ | ⟨u, _, k, -⟩ | ⟨u, k, -⟩
  · rw [hfree] at hheld; cases hheld
  · rw [k] at h; cases h
  · rw [k] at h; cases h; exact hout
  · rw [k] at h; cases h
  · rw [k] at h; cases h

/-- The byte of an answered operation is the one its trace entry records (40_port_access.md R101, R102). -/
theorem State.byte_of_portOp_ok {s t : State} {m : Master} {r : PortRequest} {b : Byte}
    (h : s.portOp m r = (.ok b, t)) : b = eventByte r (s.reachEc r).1 := by
  rcases s.portOp_cases m r with ⟨k, -⟩ | ⟨k, -⟩ | ⟨u, k, -⟩ | ⟨u, _, k, -⟩ | ⟨u, k, -⟩
  · rw [k] at h; cases h
  · rw [k] at h; cases h
  · rw [k] at h; cases h
  · rw [k] at h; cases h
  · rw [k] at h; cases h; rfl

/-- The oracle EC answers a read with the next word decided, cut to the width of the bus (20_memory.md R47). -/
theorem State.ecRead_oracle {s : State} {w : Nat} {rest : List Nat} (hec : s.env.ecKind = .oracle)
    (hans : s.env.answers = w :: rest) (p : Port) :
    s.ecRead p = (s.cfg.onBus w, { s.env with answers := rest }) := by
  simp [State.ecRead, hec, hans]

end Sys2Proof.Machine

namespace Sys2Proof.Safety

open Sys2Proof.Machine

/-- Settles O17: the request of a write holds the low byte and the address uncut, and the low byte of an answer survives
the bus. -/
theorem portsCarryOneByte : Obligations.PortsCarryOneByte := by
  unfold Obligations.PortsCarryOneByte
  refine ⟨fun s m p v => ?_, fun s t m p v hfree hpend => ?_, fun s t m p b w rest hec hans hok => ?_⟩
  · rw [State.ioWrite, State.ioWrite, lowByte_mod]
  · refine ⟨writeRequest s.cfg p (lowByte v), State.outstanding_of_portOp_pending hfree hpend, rfl, rfl, ?_,
      s.cfg.portAddress_eq p⟩
    rw [writeRequest_wdata, lowByte_toNat]
  · have hbyte : b = lowByte (s.ecRead p).1 := State.byte_of_portOp_ok hok
    rw [hbyte, State.ecRead_oracle hec hans, lowByte_onBus_word, lowByte_toNat]

end Sys2Proof.Safety
end

section
/-! PROOFS. What a step with one port operation does with each answer, for every step of one shape, and the read
transaction's steps (42_read_transaction.md R121 to R127). -/

namespace Sys2Proof.Machine

open Sys2Proof.Safety

theorem State.onlyBus_of_portOp {s t : State} {m : Master} {r : PortRequest} {a : PortResult}
    (h : s.portOp m r = (a, t)) : OnlyBusMoved s t := by
  have hmoved := s.portOp_onlyBus m r
  rwa [h] at hmoved

theorem State.complete_eq_endedWith (kind : ResKind) (stage : Stage) (data : Half) (t : State) :
    t.complete kind stage data = endedWith kind stage data t := rfl

/-! ### The two values the front end assembles (30_encoding.md R82, R83) -/

/-- Two bytes fit a halfword, so the sentinel is met as a number. -/
theorem rpmValue_eq (k : Constants) (msb lsb : Byte) :
    rpmValue k msb lsb =
      if msb.toNat * 256 + lsb.toNat = k.rpmAbsent.toNat then 0 else BitVec.ofNat 16 (msb.toNat * 256 + lsb.toNat) := by
  have hfits : msb.toNat * 256 + lsb.toNat < 2 ^ 16 := by
    have hmsb := msb.isLt
    have hlsb := lsb.isLt
    omega
  have hsentinel : BitVec.ofNat 16 (msb.toNat * 256 + lsb.toNat) = k.rpmAbsent ↔
      msb.toNat * 256 + lsb.toNat = k.rpmAbsent.toNat := by
    rw [← BitVec.toNat_inj, BitVec.toNat_ofNat, Nat.mod_eq_of_lt hfits]
  simp only [rpmValue, hsentinel]

theorem sext16_eq_ofInt (b : Byte) : sext16 b = BitVec.ofInt 16 b.toInt := rfl

/-! ### The closing step of a read, by the answer of its status read (42_read_transaction.md R127) -/

theorem exec_stepR7_ok {s t : State} {b : Byte} {finish : State → State} (h : s.ioRead .engine .sc = (.ok b, t))
    (hfe : readCompletion s.fe = some finish) : exec .stepR7 s = .next (finish t) := by
  simp only [exec, execStepR7, h, hfe, portStep]

theorem exec_stepR7_error {s t : State} (h : s.ioRead .engine .sc = (.error, t)) :
    exec .stepR7 s = .next (t.failWith .portAccessError .none) := by
  cases hfe : readCompletion s.fe <;> simp only [exec, execStepR7, h, hfe, portStep]

theorem exec_stepR7_pending {s t : State} (h : s.ioRead .engine .sc = (.pending, t)) :
    exec .stepR7 s = .next t := by
  cases hfe : readCompletion s.fe <;> simp only [exec, execStepR7, h, hfe, portStep]

end Sys2Proof.Machine

namespace Sys2Proof.Safety

open Sys2Proof.Machine

/-! ### Steps of one shape -/

section
variable {i : Instr} {st target : Step}

/-- A step that runs one poll iteration and goes on to `target` is a poll step, if the iteration's flag is the one the
step waits for. -/
theorem pollStepSays_of_iteration {mask : Params → Byte} {want : Bool}
    (hexec : ∀ s, exec i s =
      .next (pollStep (pollStage st) (State.goto target) (s.pollIteration .engine (mask s.cfg) want)))
    (hflag : ∀ cfg b, pollSatisfied cfg st b = true ↔ flagOf b (mask cfg) = want) : PollStepSays i st target := by
  intro s t
  refine ⟨fun _ h => State.onlyBus_of_portOp h, fun b h => ?_, fun h => ?_, fun h => ?_⟩
  · have hunseen (hunsat : pollSatisfied s.cfg st b = false) : ¬ flagOf b (mask s.cfg) = want := by
      rw [← hflag, hunsat]
      exact Bool.false_ne_true
    rw [hexec, State.pollIteration_ok h]
    refine ⟨fun hsat => ?_, fun hunsat hopen => ?_, fun hunsat hpast => ?_⟩
    · rw [if_pos ((hflag _ _).mp hsat)]
      rfl
    · rw [if_neg (hunseen hunsat), if_neg (Nat.not_le.mpr hopen)]
      rfl
    · rw [if_neg (hunseen hunsat), if_pos hpast]
      rfl
  · rw [hexec, State.pollIteration_error h]
    rfl
  · rw [hexec, State.pollIteration_pending h]
    rfl

/-- Every poll but `R5`'s waits for IBF clear (41_polling.md R112). -/
theorem pollStepSays_of_waitIbfClear (hst : st ≠ .r5)
    (hexec : ∀ s, exec i s = .next (pollStep (pollStage st) (State.goto target) (s.waitIbfClear .engine))) :
    PollStepSays i st target := by
  refine pollStepSays_of_iteration (mask := Params.ibfMask) hexec fun cfg b => ?_
  have hsat : pollSatisfied cfg st b = !ibfFlag cfg b := by
    cases st
    case r5 => exact absurd rfl hst
    all_goals rfl
  rw [hsat, Bool.not_eq_true']
  rfl

/-- The answers of a step with one plain port operation: go on, end with `PortAccessError`, or wait (42_read_transaction.md
R122, R126, 40_port_access.md R105). -/
theorem exec_of_portStep {s : State} {next : Byte → State → State} {answer : PortResult × State}
    (hexec : exec i s = .next (portStep next answer)) (t : State) :
    (∀ b, answer = (.ok b, t) → exec i s = .next (next b t)) ∧
    (answer = (.error, t) → exec i s = .next (endedWith .portAccessError .none 0 t)) ∧
    (answer = (.pending, t) → exec i s = .next t) := by
  rw [hexec]
  exact ⟨by rintro b rfl; rfl, by rintro rfl; rfl, by rintro rfl; rfl⟩

/-- A step that writes one byte and enters the poll of `target` is a write step. -/
theorem writeStepSays_of_ioWrite {p : Port} {byte : State → Byte}
    (hexec : ∀ s, exec i s = .next (portStep (fun _ => State.enterPoll target) (s.ioWrite .engine p (byte s).toNat))) :
    WriteStepSays i p byte target :=
  fun s t => ⟨fun _ h => State.onlyBus_of_portOp h, exec_of_portStep (hexec s) t⟩

end

/-! ### The obligations -/

/-- Settles O25: `R1` and `R3` wait for IBF clear, `R5` for OBF set. -/
theorem readTransactionPolls : Obligations.ReadTransactionPolls := by
  unfold Obligations.ReadTransactionPolls
  refine ⟨pollStepSays_of_waitIbfClear (by decide) fun _ => rfl, pollStepSays_of_waitIbfClear (by decide) fun _ => rfl, ?_⟩
  exact pollStepSays_of_iteration (mask := Params.obfMask) (fun _ => rfl) fun _ _ => Iff.rfl

/-- Settles O26: both steps write one byte and enter the next poll. -/
theorem readTransactionSends : Obligations.ReadTransactionSends := by
  unfold Obligations.ReadTransactionSends
  exact ⟨writeStepSays_of_ioWrite fun _ => rfl, writeStepSays_of_ioWrite fun _ => rfl⟩

/-- Settles O27: the answer of the data port goes to `RDATA` untested. -/
theorem stepR6TakesTheDataByte : Obligations.StepR6TakesTheDataByte := by
  unfold Obligations.StepR6TakesTheDataByte
  intro s t
  have hexec : exec .stepR6 s =
      .next (portStep (fun b u => ({ u with rdata := b } : State).goto .r7) (s.ioRead .engine .data)) := rfl
  exact ⟨fun _ h => State.onlyBus_of_portOp h, exec_of_portStep hexec t⟩

/-- Settles O28: an answered status read leaves the data registers to the completion rule of the operation `FE` names. -/
theorem stepR7ClosesTheRead : Obligations.StepR7ClosesTheRead := by
  unfold Obligations.StepR7ClosesTheRead
  intro s t
  refine ⟨fun _ h => State.onlyBus_of_portOp h, fun b h => ?_, exec_stepR7_error, exec_stepR7_pending⟩
  have hmoved : OnlyBusMoved s t := State.onlyBus_of_portOp h
  have hrdata : t.rdata = s.rdata := by rw [hmoved]
  have hlsb : t.lsb = s.lsb := by rw [hmoved]
  have hcfg : t.cfg = s.cfg := by rw [hmoved]
  rw [← hrdata, ← hlsb, ← hcfg]
  refine ⟨fun hfe => ?_, fun hfe => ?_, fun hfe => ?_, fun hfe habsent => ?_, fun hfe hpresent => ?_⟩
  · rw [exec_stepR7_ok h (congrArg readCompletion hfe), zext16_eq_ofNat, State.complete_eq_endedWith]
  · exact exec_stepR7_ok h (congrArg readCompletion hfe)
  · rw [exec_stepR7_ok h (congrArg readCompletion hfe), rpmValue_eq, State.complete_eq_endedWith]
  · rw [exec_stepR7_ok h (congrArg readCompletion hfe), if_pos habsent, State.complete_eq_endedWith]
  · rw [exec_stepR7_ok h (congrArg readCompletion hfe), if_neg hpresent, sext16_eq_ofInt, State.complete_eq_endedWith]

end Sys2Proof.Safety
end

section
/-! PROOFS. The write transaction's steps (43_write_transaction.md R131 to R137). -/

namespace Sys2Proof.Machine

/-- An iteration that sees IBF set is decided by the window (41_polling.md R110, R112). -/
theorem State.waitIbfClear_of_ibf_set {s t : State} {m : Master} {b : Byte} (h : s.ioRead m .sc = (.ok b, t))
    (hibf : ibfFlag s.cfg b = true) :
    s.waitIbfClear m = (if t.deadline ≤ t.now then .timedOut else .again, t) := by
  have hset : ¬ flagOf b s.cfg.ibfMask = false := ne_false_of_eq_true hibf
  rw [State.waitIbfClear, State.pollIteration_ok h, if_neg hset]

/-- Unsatisfied, `W7` runs no completion rule, so it does not depend on the operation `FE` names: it is a poll step with
any `next` (43_write_transaction.md R137). -/
theorem exec_stepW7_unsatisfied {s t : State} {r : PollResult} (h : s.waitIbfClear .engine = (r, t))
    (hr : r ≠ .satisfied) (next : State → State) : exec .stepW7 s = .next (pollStep .ibfAfterData next (r, t)) := by
  change execStepW7 s = _
  unfold execStepW7
  rw [h]
  cases r with
  | satisfied => exact absurd rfl hr
  | again | timedOut | portError | waiting => cases writeCompletion s.fe <;> rfl

end Sys2Proof.Machine

namespace Sys2Proof.Safety

open Sys2Proof.Machine

/-- Settles O29: `W1`, `W3` and `W5` wait for IBF clear. -/
theorem writeTransactionPolls : Obligations.WriteTransactionPolls := by
  unfold Obligations.WriteTransactionPolls
  exact ⟨pollStepSays_of_waitIbfClear (by decide) fun _ => rfl, pollStepSays_of_waitIbfClear (by decide) fun _ => rfl,
    pollStepSays_of_waitIbfClear (by decide) fun _ => rfl⟩

/-- Settles O30: each step writes one byte and enters the next poll. -/
theorem writeTransactionSends : Obligations.WriteTransactionSends := by
  unfold Obligations.WriteTransactionSends
  exact ⟨writeStepSays_of_ioWrite fun _ => rfl, writeStepSays_of_ioWrite fun _ => rfl,
    writeStepSays_of_ioWrite fun _ => rfl⟩

/-- Settles O31: both writing operations have the same completion rule, and it runs on a satisfied poll only. -/
theorem stepW7ConfirmsTheWrite : Obligations.StepW7ConfirmsTheWrite := by
  unfold Obligations.StepW7ConfirmsTheWrite
  intro s t
  refine ⟨fun _ h => State.onlyBus_of_portOp h, fun b h => ⟨fun hclear hfe => ?_, fun hset hopen => ?_,
    fun hset hpast => ?_⟩, fun h => ?_, fun h => ?_⟩
  · have hwriting : (writeCompletion s.fe).isSome = true := by rcases hfe with hfe | hfe <;> rw [hfe] <;> rfl
    calc exec .stepW7 s
        = .next (pollStep .ibfAfterData (State.complete .ok .none 0) (s.waitIbfClear .engine)) := execStepW7_eq hwriting
      _ = .next (endedWith .ok .none 0 t) := by rw [pollStep_waitIbfClear h, hclear]; rfl
  · have hwait := State.waitIbfClear_of_ibf_set h hset
    rw [if_neg (Nat.not_le.mpr hopen)] at hwait
    exact exec_stepW7_unsatisfied hwait nofun id
  · have hwait := State.waitIbfClear_of_ibf_set h hset
    rw [if_pos hpast] at hwait
    exact exec_stepW7_unsatisfied hwait nofun id
  · exact exec_stepW7_unsatisfied (State.pollIteration_error h _ _) nofun id
  · exact exec_stepW7_unsatisfied (State.pollIteration_pending h _ _) nofun id

end Sys2Proof.Safety
end

section
/-! PROOFS. The arguments the accept step checks: which are legal at the source's constants, and what the accept step does
with a legal and with an illegal one. -/

namespace Sys2Proof.Machine

/-- The source's bound on the sensor index (44_derived_operations.md R144). -/
theorem legalSensor_source (i : Byte) : legalSensor Constants.source i = decide (i.toNat ≤ 7) := rfl

/-- `LegalLevel` at the source's constants, as a set of numbers (44_derived_operations.md R146). -/
theorem legalLevel_source_iff (l : Byte) :
    legalLevel Constants.source l = true ↔ l.toNat ∈ [0, 1, 2, 3, 4, 5, 6, 7, 0x40, 0x80] := by
  have hbounds : legalLevel Constants.source l = true ↔ (l.toNat ≤ 7 ∨ l.toNat = 0x40) ∨ l.toNat = 0x80 := by
    rw [legalLevel, Bool.or_eq_true, Bool.or_eq_true, decide_eq_true_iff, beq_iff_eq, beq_iff_eq,
      ← BitVec.toNat_inj, ← BitVec.toNat_inj]
    rfl
  rw [hbounds]
  simp only [List.mem_cons, List.not_mem_nil, or_false]
  omega

/-! ### The argument check of the accept step, at any constants (44_derived_operations.md R144, R146) -/

theorem acceptTemp_legal {s : State} {i : Byte} (hfe : s.cfg.hasFrontEnd = true) (hi : legalSensor s.cfg.k i = true) :
    acceptTemp i s = s.beginRead .temp (tempOffset s.cfg.k i) := by
  simp [acceptTemp, hfe, hi]

theorem acceptTemp_illegal {s : State} {i : Byte} (hi : legalSensor s.cfg.k i = false) : acceptTemp i s = s.reject := by
  simp [acceptTemp, hi]

theorem acceptLevel_legal {s : State} {l : Byte} (hfe : s.cfg.hasFrontEnd = true) (hl : legalLevel s.cfg.k l = true) :
    acceptLevel l s = s.beginWrite .level s.cfg.k.regFanStatus l := by
  simp [acceptLevel, hfe, hl]

theorem acceptLevel_illegal {s : State} {l : Byte} (hl : legalLevel s.cfg.k l = false) : acceptLevel l s = s.reject := by
  simp [acceptLevel, hl]

end Sys2Proof.Machine

namespace Sys2Proof.Safety

open Sys2Proof.Machine

/-- Settles O11: a legal argument begins the transaction, an illegal one is `State.reject`, front end or not. -/
theorem badArgumentsAreRejected : Obligations.BadArgumentsAreRejected := by
  unfold Obligations.BadArgumentsAreRejected
  refine ⟨legalLevel_source_iff, fun s a b i l hstep hbusy hk => ?_⟩
  have haccept := State.acceptWith_idle hstep hbusy
  rw [exec_tempRead, exec_fanLevelWrite, haccept, haccept, ← hk]
  have hsensor : legalSensor s.cfg.k i = decide (i.toNat ≤ 7) := by rw [hk, legalSensor_source]
  refine ⟨fun hi hfe => ?_, fun hi => ?_, fun hl hfe => ?_, fun hl => ?_⟩
  · rw [acceptTemp_legal hfe (hsensor.trans (decide_eq_true hi))]
    exact ⟨_, rfl, State.beginRead_busy ..⟩
  · rw [acceptTemp_illegal (hsensor.trans (decide_eq_false (Nat.not_le.mpr hi)))]
    rfl
  · rw [acceptLevel_legal hfe hl]
    exact ⟨_, rfl, State.beginWrite_busy ..⟩
  · rw [acceptLevel_illegal hl]
    rfl

end Sys2Proof.Safety
end

section
/-! PROOFS. The threshold the curve's search finds is the greatest one the reading reaches, and the level read off there
(45_consumers.md R161). -/

namespace Sys2Proof.Machine

/-! ### The greatest threshold at or below the reading -/

/-- The thresholds of the curve at or below the reading. -/
def reachedThresholds (reading : Int) (curve : Curve) : Set Int :=
  {t | t ≤ reading ∧ ∃ p ∈ curve, p.1 = t}

theorem reachedThresholds_nil (reading : Int) : reachedThresholds reading [] = ∅ := by
  simp [reachedThresholds]

theorem reachedThresholds_cons_above {reading t : Int} (a : Byte) (rest : Curve) (ht : ¬ t ≤ reading) :
    reachedThresholds reading ((t, a) :: rest) = reachedThresholds reading rest := by
  ext u
  simp only [reachedThresholds, List.exists_mem_cons_iff, Set.mem_ofPred_eq]
  have hne : u ≤ reading → t ≠ u := fun hu htu => ht (htu ▸ hu)
  tauto

theorem reachedThresholds_cons_reached {reading t : Int} (a : Byte) (rest : Curve) (ht : t ≤ reading) :
    reachedThresholds reading ((t, a) :: rest) = insert t (reachedThresholds reading rest) := by
  ext u
  simp only [reachedThresholds, List.exists_mem_cons_iff, Set.mem_ofPred_eq, Set.mem_insert_iff]
  have heq : u = t → u ≤ reading := fun hut => hut ▸ ht
  tauto

theorem bestThreshold_cons_above {reading t : Int} (a : Byte) (rest : Curve) (ht : ¬ t ≤ reading) :
    bestThreshold reading ((t, a) :: rest) = bestThreshold reading rest := by
  cases h : bestThreshold reading rest <;> simp [bestThreshold, h, ht]

theorem bestThreshold_cons_reached {reading t : Int} (a : Byte) (rest : Curve) (ht : t ≤ reading) :
    bestThreshold reading ((t, a) :: rest) = some ((bestThreshold reading rest).elim t (max t)) := by
  cases h : bestThreshold reading rest with
  | none => simp [bestThreshold, h, ht]
  | some u =>
    simp only [bestThreshold, h, ht, true_and, Option.elim]
    split
    · next hlt => rw [max_eq_left hlt.le]
    · next hge => rw [max_eq_right (not_lt.mp hge)]

theorem reachedThresholds_eq_empty {reading : Int} {curve : Curve} (h : bestThreshold reading curve = none) :
    reachedThresholds reading curve = ∅ := by
  induction curve with
  | nil => exact reachedThresholds_nil reading
  | cons p rest ih =>
    by_cases ht : p.1 ≤ reading
    · rw [bestThreshold_cons_reached p.2 rest ht] at h; cases h
    · rw [bestThreshold_cons_above p.2 rest ht] at h
      rw [reachedThresholds_cons_above p.2 rest ht, ih h]

/-- The search finds the greatest threshold at or below the reading. -/
theorem bestThreshold_isGreatest {reading t : Int} {curve : Curve} (h : bestThreshold reading curve = some t) :
    IsGreatest (reachedThresholds reading curve) t := by
  induction curve generalizing t with
  | nil => cases h
  | cons p rest ih =>
    by_cases ht : p.1 ≤ reading
    · rw [bestThreshold_cons_reached p.2 rest ht, Option.some_inj] at h
      rw [reachedThresholds_cons_reached p.2 rest ht, ← h]
      cases hrest : bestThreshold reading rest with
      | none => simp [reachedThresholds_eq_empty hrest]
      | some u => exact (ih hrest).insert p.1
    · rw [bestThreshold_cons_above p.2 rest ht] at h
      rw [reachedThresholds_cons_above p.2 rest ht]
      exact ih h

theorem bestThreshold_eq_some {reading t : Int} {curve : Curve}
    (h : IsGreatest (reachedThresholds reading curve) t) : bestThreshold reading curve = some t := by
  cases hbest : bestThreshold reading curve with
  | none =>
    obtain ⟨hmem, -⟩ := h
    rw [reachedThresholds_eq_empty hbest] at hmem
    exact hmem.elim
  | some u => rw [(bestThreshold_isGreatest hbest).unique h]

/-! ### The level at a threshold -/

theorem mem_levelsAt {t : Int} {l : Byte} {curve : Curve} : l ∈ levelsAt t curve ↔ (t, l) ∈ curve := by
  simp [levelsAt]

theorem curveLevel_none (k : Constants) (curve : Curve) : curveLevel k curve none = k.levelAuto := rfl

/-- The level at the threshold found, where the curve pairs it with one level, however often. -/
theorem curveLevel_some_of_unique_level {k : Constants} {curve : Curve} {reading t : Int} {l : Byte}
    (hbest : bestThreshold reading curve = some t) (hl : l ∈ levelsAt t curve)
    (honly : ∀ a ∈ levelsAt t curve, a = l) : curveLevel k curve (some reading) = l := by
  simp only [curveLevel, hbest]
  cases hlevels : levelsAt t curve with
  | nil => simp [hlevels] at hl
  | cons a rest =>
    rw [hlevels, List.forall_mem_cons] at honly
    obtain ⟨rfl, hrest⟩ := honly
    have hall : rest.all (· == a) = true := List.all_eq_true.mpr fun b hb => beq_iff_eq.mpr (hrest b hb)
    exact if_pos hall

end Sys2Proof.Machine

namespace Sys2Proof.Safety

open Sys2Proof.Machine

/-- Settles O55: the pair's threshold is the greatest one reached, and its level is the only one there. -/
theorem curveGivesTheHighestThresholdsLevel : Obligations.CurveGivesTheHighestThresholdsLevel := by
  unfold Obligations.CurveGivesTheHighestThresholdsLevel
  refine ⟨curveLevel_none, fun k curve reading θ l hmem hθ hhighest => ?_⟩
  have hgreatest : IsGreatest (reachedThresholds reading curve) θ := by
    refine ⟨⟨hθ, (θ, l), hmem, rfl⟩, ?_⟩
    rintro _ ⟨hp, p, hpmem, rfl⟩
    obtain hlt | rfl := hhighest p hpmem hp
    · exact hlt.le
    · exact le_rfl
  have honly : ∀ a ∈ levelsAt θ curve, a = l := fun a ha => by
    obtain hlt | heq := hhighest (θ, a) (mem_levelsAt.mp ha) hθ
    · exact absurd hlt (lt_irrefl θ)
    · exact congrArg Prod.snd heq
  exact curveLevel_some_of_unique_level (bestThreshold_eq_some hgreatest) (mem_levelsAt.mpr hmem) honly

end Sys2Proof.Safety
end

section
/-! PROOFS. A port operation the bus takes and the mechanism errors on (60_exceptions.md R193). -/

namespace Sys2Proof.Machine

open Sys2Proof.Safety

/-- A request the bus takes is neither held up by another nor refused, so the mechanism's error is what it answers. -/
theorem State.portOp_of_fail {s : State} {m : Master} {r : PortRequest} {reached : Bool} (htakes : BusTakes m r s)
    (hfail : s.mechanism r = .fail reached) :
    ∃ t, s.portOp m r = (.error, t) ∧ OnlyBusMoved s t ∧
      t.trace = { master := m, dir := r.dir, port := r.port, byte := none } :: s.trace ∧ t.outstanding = none ∧
      t.env.ec = if reached then (s.reachEc r).2.ec else s.env.ec := by
  obtain ⟨hheld, hrefuses⟩ := (s.bus_taken_iff m r).mpr htakes
  rcases s.portOp_cases m r with ⟨-, hother⟩ | ⟨-, hpal⟩ | ⟨_, -, hhang, -⟩ |
    ⟨t, reached', herror, hmech, hmoved, -, htrace, hout, hec⟩ | ⟨_, -, hpass, -⟩
  · rw [(s.busHeld_iff m r).mpr hother] at hheld; cases hheld
  · rw [s.palRefuses_iff.mpr hpal] at hrefuses; cases hrefuses
  · rw [hfail] at hhang; cases hhang
  · rw [hfail] at hmech; cases hmech
    exact ⟨t, herror, hmoved, htrace, hout, hec⟩
  · rw [hfail] at hpass; cases hpass

theorem State.reachEc_readRequest (s : State) (p : Port) : s.reachEc (readRequest s.cfg p) = s.ecRead p := rfl

theorem State.reachEc_writeRequest (s : State) (p : Port) (b : Byte) :
    s.reachEc (writeRequest s.cfg p b) = (0, s.ecWrite p b) := by
  have hreach : s.reachEc (writeRequest s.cfg p b) = (0, s.ecWrite p (lowByte (writeRequest s.cfg p b).wdata)) := rfl
  rw [hreach, lowByte_writeRequest]

end Sys2Proof.Machine

namespace Sys2Proof.Safety

open Sys2Proof.Machine

/-- Settles O18: a read and a write are port operations, and what their requests do at the EC is `ecRead` and `ecWrite`. -/
theorem failedPortOperation : Obligations.FailedPortOperation := by
  unfold Obligations.FailedPortOperation
  refine ⟨fun s m p v reached => ⟨fun htakes hfail => ?_, fun htakes hfail => ?_⟩, fun s m p v hpal hfree => ?_⟩
  · have hread := State.portOp_of_fail htakes hfail
    rwa [State.reachEc_readRequest] at hread
  · have hwrite := State.portOp_of_fail htakes hfail
    rwa [State.reachEc_writeRequest] at hwrite
  · exact ⟨State.portOp_refused hfree hpal, State.portOp_refused hfree hpal⟩

end Sys2Proof.Safety
end

section
/-! PROOFS. What one step of the machine runs: a request accepted, an operation of another port master, the engine's own
step, or nothing (10_state.md R13, R14, R22). -/

namespace Sys2Proof

/-- What decodes on a channel is an instruction of that channel (30_encoding.md R70). -/
theorem channel_of_decode {p : Params} {ch : Channel} {w : Nat} {i : Instr} (h : decode p ch w = .ok i) :
    i.channel = ch := by
  have hw : ¬2 ^ ch.width ≤ w := Nat.not_le.mpr (decode_lt h)
  unfold decode at h
  rw [if_neg hw] at h
  cases ch with
  | req => simp only [decodeReq] at h; split at h <;> cases h <;> rfl
  | cmd => simp only [decodeCmd] at h; split at h <;> [skip; split at h] <;> cases h <;> rfl
  | portop => simp only [decodePortop] at h; split at h <;> cases h <;> rfl
  | pollIbf => simp only [decodePollIbf] at h; split at h <;> cases h; rfl
  | pollObf => simp only [decodePollObf] at h; split at h <;> cases h; rfl
  | step => simp only [decodeStep] at h; split at h <;> cases h <;> rfl

end Sys2Proof

namespace Sys2Proof.Machine

open Sys2Proof.Safety

/-! ### The engine's place in its operation -/

/-- The engine is at the same place of the same operation, in the same window. -/
structure SameOperation (s t : State) : Prop where
  step : t.step = s.step
  fe : t.fe = s.fe
  busy : t.busy = s.busy
  deadline : t.deadline = s.deadline

theorem SameOperation.trans {s t u : State} (h : SameOperation s t) (k : SameOperation t u) : SameOperation s u :=
  ⟨k.step.trans h.step, k.fe.trans h.fe, k.busy.trans h.busy, k.deadline.trans h.deadline⟩

theorem State.portOp_sameOperation (s : State) (m : Master) (r : PortRequest) : SameOperation s (s.portOp m r).2 :=
  ⟨s.portOp_step m r, s.portOp_fe m r, s.portOp_busy m r, s.portOp_deadline m r⟩

theorem State.sameOperation_of_portOp {s t : State} {m : Master} {r : PortRequest} {a : PortResult}
    (h : s.portOp m r = (a, t)) : SameOperation s t := by
  have hsame := s.portOp_sameOperation m r
  rwa [h] at hsame

/-- The clock, its model, the trace and the parameters are the same. -/
structure SameTime (s t : State) : Prop where
  now : t.now = s.now
  trace : t.trace = s.trace
  clock : t.env.clock = s.env.clock
  cfg : t.cfg = s.cfg

/-- The steps of its transaction that the engine has still to leave. -/
def placesLeft : Step → Nat
  | .idle => 0
  | .r1 | .w1 => 7
  | .r2 | .w2 => 6
  | .r3 | .w3 => 5
  | .r4 | .w4 => 4
  | .r5 | .w5 => 3
  | .r6 | .w6 => 2
  | .r7 | .w7 => 1

/-- The steps the engine has still to leave until its operation ends; the first half of a fan RPM read has a second
transaction to come (44_derived_operations.md R143). -/
def State.stepsLeft (s : State) : Nat := placesLeft s.step + if s.fe = .rpmLsb then 7 else 0

theorem SameOperation.stepsLeft {s t : State} (h : SameOperation s t) : t.stepsLeft = s.stepsLeft := by
  rw [State.stepsLeft, State.stepsLeft, h.step, h.fe]

/-- After an answer the engine ends its operation, or goes on to another step with less left to do. -/
inductive MovesOn (v : State) : State → Prop
  | ended (kind : ResKind) (stage : Stage) (data : Half) : MovesOn v (v.complete kind stage data)
  | advanced {u : State} (time : SameTime v u) (busy : u.busy = v.busy) (idle : u.step ≠ .idle) (step : u.step ≠ v.step)
      (left : u.stepsLeft < v.stepsLeft) : MovesOn v u

/-- What a step of the engine's own does: it waits for an answer, stays in its poll with the window open, or moves on. -/
inductive EngineRan (s : State) : State → Prop
  | waits {r : PortRequest} {v : State} (h : s.portOp .engine r = (.pending, v)) : EngineRan s v
  | stays {b : Byte} {v : State} (h : s.ioRead .engine .sc = (.ok b, v)) (window : v.now < v.deadline) : EngineRan s v
  | movesOn {r : PortRequest} {a : PortResult} {v u : State} (h : s.portOp .engine r = (a, v)) (moves : MovesOn v u) :
      EngineRan s u

/-! ### Each step of the engine's own, by its shape -/

/-- A move along a transaction, the operation as it was. -/
theorem MovesOn.along {v u : State} (time : SameTime v u) (busy : u.busy = v.busy) (fe : u.fe = v.fe)
    (idle : u.step ≠ .idle) (left : placesLeft u.step < placesLeft v.step) : MovesOn v u := by
  refine .advanced time busy idle (fun hstep => ?_) ?_
  · rw [hstep] at left; exact lt_irrefl _ left
  · rw [State.stepsLeft, State.stepsLeft, fe]; exact Nat.add_lt_add_right left _

section
variable {s : State} {st target : Step}

theorem EngineRan.of_poll {mask : Byte} {want : Bool} {stage : Stage} {next : State → State}
    (hnext : ∀ v, SameOperation s v → MovesOn v (next v)) :
    EngineRan s (pollStep stage next (s.pollIteration .engine mask want)) := by
  rcases h : s.ioRead .engine .sc with ⟨a, v⟩
  have hport : s.portOp .engine (readRequest s.cfg .sc) = (a, v) := h
  cases a with
  | ok b =>
    rw [State.pollIteration_ok h]
    split
    · exact .movesOn hport (hnext v (State.sameOperation_of_portOp hport))
    · split
      · exact .movesOn hport (.ended _ _ _)
      · next hopen => exact .stays h (Nat.not_le.mp hopen)
  | error => rw [State.pollIteration_error h]; exact .movesOn hport (.ended _ _ _)
  | pending => rw [State.pollIteration_pending h]; exact .waits hport

theorem EngineRan.of_poll_goto {mask : Byte} {want : Bool} {stage : Stage} (hst : s.step = st)
    (hlater : target ≠ .idle ∧ placesLeft target < placesLeft st) :
    EngineRan s (pollStep stage (State.goto target) (s.pollIteration .engine mask want)) := by
  refine .of_poll fun v hv => .along ⟨rfl, rfl, rfl, rfl⟩ rfl rfl hlater.1 ?_
  rw [hv.step, hst]
  exact hlater.2

theorem EngineRan.of_port {r : PortRequest} {next : Byte → State → State}
    (hnext : ∀ b v, SameOperation s v → MovesOn v (next b v)) :
    EngineRan s (portStep next (s.portOp .engine r)) := by
  rcases h : s.portOp .engine r with ⟨a, v⟩
  cases a with
  | ok b => exact .movesOn h (hnext b v (State.sameOperation_of_portOp h))
  | error => exact .movesOn h (.ended _ _ _)
  | pending => exact .waits h

theorem EngineRan.of_send {r : PortRequest} (hst : s.step = st)
    (hlater : target ≠ .idle ∧ placesLeft target < placesLeft st) :
    EngineRan s (portStep (fun _ => State.enterPoll target) (s.portOp .engine r)) := by
  refine .of_port fun b v hv => .along ⟨rfl, rfl, rfl, rfl⟩ rfl rfl hlater.1 ?_
  rw [hv.step, hst]
  exact hlater.2

theorem EngineRan.of_take {r : PortRequest} (hst : s.step = .r6) :
    EngineRan s (portStep (fun b t => ({ t with rdata := b } : State).goto .r7) (s.portOp .engine r)) := by
  refine .of_port fun b v hv => .along ⟨rfl, rfl, rfl, rfl⟩ rfl rfl nofun ?_
  rw [hv.step, hst]
  exact Nat.one_lt_two

/-- The completion of a read ends the operation, or begins the second half of a fan RPM read. -/
theorem movesOn_readCompletion {v : State} {finish : State → State} (hst : v.step = .r7)
    (hfinish : readCompletion v.fe = some finish) : MovesOn v (finish v) := by
  cases hfe : v.fe <;> rw [hfe] at hfinish <;> cases hfinish
  case rawRd => exact .ended _ _ _
  case rpmMsb => exact .ended _ _ _
  case temp => dsimp only; split <;> exact .ended _ _ _
  case rpmLsb =>
    refine .advanced ⟨rfl, rfl, rfl, rfl⟩ rfl nofun ?_ ?_
    · rw [hst]; exact nofun
    · simp [State.stepsLeft, hst, hfe, placesLeft]

theorem EngineRan.of_stepR7 {u : State} (hst : s.step = .r7) (h : exec .stepR7 s = .next u) : EngineRan s u := by
  have hexec : execStepR7 s = .next u := h
  unfold execStepR7 at hexec
  split at hexec
  · next finish hfinish =>
    cases hexec
    refine .of_port fun _ v hv => movesOn_readCompletion (hv.step.trans hst) ?_
    rw [hv.fe]
    exact hfinish
  · cases hexec
  · next t _ herror => cases hexec; exact .movesOn herror (.ended _ _ _)
  · next t _ hpending => cases hexec; exact .waits hpending

theorem EngineRan.of_stepW7 {u : State} (h : exec .stepW7 s = .next u) : EngineRan s u := by
  have hended : exec .stepW7 s =
      .next (pollStep .ibfAfterData (State.complete .ok .none 0) (s.waitIbfClear .engine)) := by
    cases hfe : writeCompletion s.fe with
    | some finish => exact execStepW7_eq (by rw [hfe]; rfl)
    | none =>
      rcases hwait : s.waitIbfClear .engine with ⟨r, t⟩
      refine exec_stepW7_unsatisfied hwait (fun hr => ?_) _
      subst hr
      have hfault : exec .stepW7 s = .fault .noCompletionRule := by simp only [exec, execStepW7, hfe, hwait]
      rw [hfault] at h
      cases h
  rw [hended] at h
  cases h
  exact .of_poll fun v _ => .ended _ _ _

/-- The step `STEP` names, but `IDLE` (42_read_transaction.md, 43_write_transaction.md). -/
theorem EngineRan.of_exec {u : State} {i : Instr} (hidle : s.step ≠ .idle)
    (hi : decode s.cfg .step (stepCode s.step).toNat = .ok i) (h : exec i s = .next u) : EngineRan s u := by
  cases hst : s.step <;> rw [hst] at hi <;> cases hi
  case idle => exact absurd hst hidle
  case r7 => exact .of_stepR7 hst h
  case w7 => exact .of_stepW7 h
  all_goals cases h
  case r1 => exact .of_poll_goto hst (by decide)
  case r2 => exact .of_send hst (by decide)
  case r3 => exact .of_poll_goto hst (by decide)
  case r4 => exact .of_send hst (by decide)
  case r5 => exact .of_poll_goto hst (by decide)
  case r6 => exact .of_take hst
  case w1 => exact .of_poll_goto hst (by decide)
  case w2 => exact .of_send hst (by decide)
  case w3 => exact .of_poll_goto hst (by decide)
  case w4 => exact .of_send hst (by decide)
  case w5 => exact .of_poll_goto hst (by decide)
  case w6 => exact .of_send hst (by decide)

end

/-! ### Whatever the step runs -/

/-- What the accept step does: it rejects the request, or begins one of the two transactions (44_derived_operations.md
R140). -/
inductive Accepted (s : State) : State → Prop
  | rejects : Accepted s s.reject
  | reads (fe : Fe) (o : Byte) : Accepted s (s.beginRead fe o)
  | writes (fe : Fe) (o v : Byte) : Accepted s (s.beginWrite fe o v)

/-- What the instruction of a step does. -/
inductive Ran (s : State) : State → Prop
  | accepted {u : State} (idle : s.step = .idle) (h : Accepted s u) : Ran s u
  | other (calls : s.calls ≠ []) (r : PortRequest) (res : PrimResult) :
      Ran s { (s.portOp .other r).2 with primResult := res }
  | rests (idle : s.step = .idle) : Ran s s
  | engine {u : State} (idle : s.step ≠ .idle) (h : EngineRan s u) : Ran s u

theorem acceptRpm_accepted (s : State) : Accepted s (acceptRpm s) := by
  unfold acceptRpm
  split
  · exact .reads _ _
  · exact .rejects

theorem acceptTemp_accepted (i : Byte) (s : State) : Accepted s (acceptTemp i s) := by
  unfold acceptTemp
  split
  · exact .reads _ _
  · exact .rejects

theorem acceptLevel_accepted (l : Byte) (s : State) : Accepted s (acceptLevel l s) := by
  unfold acceptLevel
  split
  · exact .writes _ _ _
  · exact .rejects

theorem Accepted.of_exec {s u : State} {i : Instr} (hidle : s.step = .idle) (hbusy : s.busy = false)
    (hi : i.channel = .req) (h : exec i s = .next u) : Accepted s u := by
  have haccept := State.acceptWith_idle hidle hbusy
  cases i <;> cases hi <;> cases h
  case readRegister => rw [haccept]; exact .reads _ _
  case writeRegister => rw [haccept]; exact .writes _ _ _
  case fanRpmRead => rw [haccept]; exact acceptRpm_accepted s
  case tempRead => rw [haccept]; exact acceptTemp_accepted _ s
  case fanLevelWrite => rw [haccept]; exact acceptLevel_accepted _ s
  case reservedOp5 | reservedOp6 | reservedOp7 => rw [haccept]; exact .rejects

theorem recordPoll_eq (s : State) (m : Master) (mask : Byte) (want : Bool) :
    recordPoll (s.pollIteration m mask want) =
      { (s.ioRead m .sc).2 with primResult := .poll (s.pollIteration m mask want).1 } := by
  rw [← State.pollIteration_state s m mask want]
  rfl

theorem Ran.of_exec_other {s u : State} {i : Instr} (hcalls : s.calls ≠ []) (hi : ownChannel i.channel = false)
    (h : exec i s = .next u) : Ran s u := by
  cases i <;> cases hi <;> cases h
  case waitIbfClear => rw [State.waitIbfClear, recordPoll_eq]; exact .other hcalls _ _
  case waitObfSet => rw [State.waitObfSet, recordPoll_eq]; exact .other hcalls _ _
  all_goals exact .other hcalls _ _

/-- Without an accept step `STEP_IDLE` changes nothing (10_state.md R22). -/
theorem exec_stepIdle_rests {s : State} (h : s.accepts = false) : exec .stepIdle s = .next s := by
  have hexec : exec .stepIdle s = .next (if s.start then s.acceptWith (acceptWord s.req) else s) := rfl
  rw [hexec]
  split
  · next hstart =>
    have hbusy : ¬(s.step = .idle ∧ s.busy = false) := by
      simpa [State.accepts, hstart] using h
    rw [State.acceptWith, if_neg hbusy]
  · rfl

theorem Ran.of_fetch {s u : State} {i : Instr} (hi : s.fetch = .ok i) (h : exec i s = .next u) : Ran s u := by
  unfold State.fetch at hi
  split at hi
  · next haccepts =>
    obtain ⟨⟨hidle, hbusy⟩, -⟩ : (s.step = .idle ∧ s.busy = false) ∧ s.start = true := by
      simpa [State.accepts] using haccepts
    exact .accepted hidle (.of_exec hidle hbusy (channel_of_decode hi) h)
  · next haccepts =>
    split at hi
    · next c hcall =>
      have hcalls : s.calls ≠ [] := by
        intro hnil
        simp [State.nextCall, hnil] at hcall
      refine .of_exec_other hcalls ?_ h
      rw [channel_of_decode hi]
      cases c.channel <;> rfl
    · by_cases hidle : s.step = .idle
      · rw [hidle] at hi
        cases hi
        rw [exec_stepIdle_rests (eq_false_of_ne_true haccepts)] at h
        cases h
        exact .rests hidle
      · exact .engine hidle (.of_exec hidle hi h)

/-- The inversion of a step: an instruction ran, its call ended if it was one, and the environment acted. -/
theorem step_cases {s t : State} (h : step s = .next t) : ∃ u, Ran s u ∧ t = (s.retire u).betweenSteps := by
  unfold step at h
  split at h
  · cases h
  · next i hi =>
    split at h
    · next u hu => cases h; exact ⟨u, .of_fetch hi hu, rfl⟩
    · cases h
    · cases h

end Sys2Proof.Machine
end

section
/-! PROOFS. What the environment between two steps leaves of the engine's operation, and what every step keeps of the
clock and the trace (10_state.md R12, R25). -/

namespace Sys2Proof.Machine

open Sys2Proof.Safety

/-! ### The engine between two steps -/

/-- The engine is idle, with no operation. -/
def State.Off (s : State) : Prop := s.step = .idle ∧ s.busy = false

/-- The engine is where it was, and so are its request on the bus and the trace. -/
structure Undisturbed (s t : State) : Prop extends SameOperation s t where
  outstanding : t.outstanding = s.outstanding
  trace : t.trace = s.trace

theorem Undisturbed.trans {s t u : State} (h : Undisturbed s t) (k : Undisturbed t u) : Undisturbed s u :=
  ⟨h.toSameOperation.trans k.toSameOperation, k.outstanding.trans h.outstanding, k.trace.trans h.trace⟩

theorem HostMoved.undisturbed {s t : State} (h : HostMoved s t) : Undisturbed s t := by
  rw [h]
  exact ⟨⟨rfl, rfl, rfl, rfl⟩, rfl, rfl⟩

theorem State.elapse_undisturbed (s : State) (n : Nat) : Undisturbed s (s.elapse n) :=
  ⟨⟨s.elapse_step n, s.elapse_fe n, s.elapse_busy n, s.elapse_deadline n⟩, s.elapse_outstanding n, s.elapse_trace n⟩

/-- A reset took the operation, or nothing touched it. -/
def ResetOrUndisturbed (s t : State) : Prop := t.Off ∨ Undisturbed s t

theorem ResetOrUndisturbed.trans {s t u : State} (h : ResetOrUndisturbed s t) (k : ResetOrUndisturbed t u) :
    ResetOrUndisturbed s u := by
  obtain hoff | htu := k
  · exact .inl hoff
  obtain ⟨hidle, hbusy⟩ | hst := h
  · exact .inl ⟨htu.step.trans hidle, htu.busy.trans hbusy⟩
  · exact .inr (hst.trans htu)

theorem State.applyEvent_resetOrUndisturbed (s : State) (e : EnvEvent) : ResetOrUndisturbed s (s.applyEvent e) := by
  obtain ⟨b, -, hreset⟩ | hmoved := s.applyEvent_cases e
  · rw [hreset, State.loopReset_loop]
    exact .inl ⟨rfl, rfl⟩
  · exact .inr hmoved.undisturbed

theorem State.foldl_applyEvent_resetOrUndisturbed (batch : List EnvEvent) (s : State) :
    ResetOrUndisturbed s (batch.foldl State.applyEvent s) := by
  induction batch generalizing s with
  | nil => exact .inr ⟨⟨rfl, rfl, rfl, rfl⟩, rfl, rfl⟩
  | cons e batch ih => exact (s.applyEvent_resetOrUndisturbed e).trans (ih _)

theorem State.applyBatch_resetOrUndisturbed (s : State) : ResetOrUndisturbed s s.applyBatch := by
  unfold State.applyBatch
  split
  · exact .inr ⟨⟨rfl, rfl, rfl, rfl⟩, rfl, rfl⟩
  · next batch rest _ =>
    have htaken : Undisturbed s { s with inputs := rest } := ⟨⟨rfl, rfl, rfl, rfl⟩, rfl, rfl⟩
    exact .trans (.inr htaken) (State.foldl_applyEvent_resetOrUndisturbed batch _)

theorem State.retire_hostMoved (s u : State) : HostMoved u (s.retire u) := by
  obtain h | ⟨h, -⟩ := s.retire_cases u <;> rw [h] <;> rfl

/-- All that happens before the next step (10_state.md R12, 70_reset_and_hazards.md R220). -/
theorem State.afterwards_resetOrUndisturbed (s u : State) : ResetOrUndisturbed u (s.retire u).betweenSteps := by
  have hhost : HostMoved u (s.retire u).endStrobe.loopReact :=
    ((s.retire_hostMoved u).trans (State.endStrobe_hostMoved _)).trans (State.loopReact_hostMoved _)
  have hbefore := hhost.undisturbed.trans (State.elapse_undisturbed _ 0)
  exact .trans (.inr hbefore) (State.applyBatch_resetOrUndisturbed _)

/-! ### Predicates on the clock and the trace that every step keeps -/

theorem HostMoved.sameTime {s t : State} (h : HostMoved s t) : SameTime s t := by
  rw [h]
  exact ⟨rfl, rfl, rfl, rfl⟩

theorem MovesOn.sameTime {v u : State} (h : MovesOn v u) : SameTime v u := by
  cases h with
  | ended => exact ⟨rfl, rfl, rfl, rfl⟩
  | advanced time => exact time

theorem Accepted.sameTime {s u : State} (h : Accepted s u) : SameTime s u := by
  cases h <;> exact ⟨rfl, rfl, rfl, rfl⟩

/-- No operation at the EC touches the clock's model. -/
theorem State.reachEc_clock (s : State) (r : PortRequest) : (s.reachEc r).2.clock = s.env.clock := by
  unfold State.reachEc State.ecRead State.ecWrite
  split
  · split
    · rfl
    · split <;> rfl
  · split <;> rfl

theorem State.abandonPortOp_clock (s : State) (reached : Bool) : (s.abandonPortOp reached).clock = s.env.clock := by
  unfold State.abandonPortOp
  split
  · rfl
  · split
    · exact s.reachEc_clock _
    · rfl
  · rfl

theorem State.applyEvent_sameTime (s : State) (e : EnvEvent) : SameTime s (s.applyEvent e) := by
  obtain ⟨b, -, hreset⟩ | hmoved := s.applyEvent_cases e
  · rw [hreset, State.loopReset_loop]
    exact ⟨rfl, rfl, s.abandonPortOp_clock b, rfl⟩
  · exact hmoved.sameTime

/-- `P` speaks of the clock, the trace and the parameters alone, and neither a passage of time nor an answer on the bus
ends it. -/
structure Lasting (P : State → Prop) : Prop where
  same : ∀ {s t : State}, SameTime s t → P s → P t
  elapse : ∀ s : State, P s → P (s.elapse 0)
  answered : ∀ (s : State) (m : Master) (r : PortRequest) (b : Option Byte), P s → P (s.answered m r b)

section
variable {P : State → Prop} (hP : Lasting P)
include hP

theorem Lasting.portOp {s : State} (hs : P s) (m : Master) (r : PortRequest) : P (s.portOp m r).2 := by
  have hplan : P s.usePlan := hP.same (s := s) ⟨rfl, rfl, rfl, rfl⟩ hs
  have hreached : P ({ s with env := (s.reachEc r).2 } : State).usePlan :=
    hP.same (s := s) ⟨rfl, rfl, s.reachEc_clock r, rfl⟩ hs
  unfold State.portOp
  split
  · exact hs
  split
  · exact hs
  split
  · exact hP.same (s := s.usePlan.elapse 0) ⟨rfl, rfl, rfl, rfl⟩ (hP.elapse _ hplan)
  · exact hP.answered _ m r _ hreached
  · exact hP.answered _ m r _ hplan
  · exact hP.answered _ m r _ hreached

theorem Lasting.of_portOp {s t : State} {m : Master} {r : PortRequest} {a : PortResult} (h : s.portOp m r = (a, t))
    (hs : P s) : P t := by
  have hport := hP.portOp hs m r
  rwa [h] at hport

theorem Lasting.engineRan {s u : State} (h : EngineRan s u) (hs : P s) : P u := by
  cases h with
  | waits h => exact hP.of_portOp h hs
  | stays h => exact hP.of_portOp h hs
  | movesOn h moves => exact hP.same moves.sameTime (hP.of_portOp h hs)

theorem Lasting.ran {s u : State} (h : Ran s u) (hs : P s) : P u := by
  cases h with
  | accepted _ h => exact hP.same h.sameTime hs
  | other _ r res => exact hP.same (s := (s.portOp .other r).2) ⟨rfl, rfl, rfl, rfl⟩ (hP.portOp hs .other r)
  | rests => exact hs
  | engine _ h => exact hP.engineRan h hs

theorem Lasting.foldl_applyEvent {s : State} (batch : List EnvEvent) (hs : P s) :
    P (batch.foldl State.applyEvent s) := by
  induction batch generalizing s with
  | nil => exact hs
  | cons e batch ih => exact ih (hP.same (s.applyEvent_sameTime e) hs)

theorem Lasting.applyBatch {s : State} (hs : P s) : P s.applyBatch := by
  unfold State.applyBatch
  split
  · exact hs
  · exact hP.foldl_applyEvent _ (hP.same (s := s) ⟨rfl, rfl, rfl, rfl⟩ hs)

theorem Lasting.betweenSteps {s : State} (hs : P s) : P s.betweenSteps := by
  have hhost := s.endStrobe_hostMoved.trans (State.loopReact_hostMoved _)
  exact hP.applyBatch (hP.elapse _ (hP.same hhost.sameTime hs))

theorem Lasting.step {s t : State} (h : step s = .next t) (hs : P s) : P t := by
  obtain ⟨u, hran, rfl⟩ := step_cases h
  exact hP.betweenSteps (hP.same (s.retire_hostMoved u).sameTime (hP.ran hran hs))

theorem Lasting.run {r : Nat → State} (hrun : IsRun r) {m n : Nat} (hmn : m ≤ n) (hm : P (r m)) : P (r n) := by
  induction n, hmn using Nat.le_induction with
  | base => exact hm
  | succ n _ ih => exact hP.step (hrun n) ih

end

/-- Time does not run backwards (10_state.md R25). -/
theorem lasting_now (k : Nat) : Lasting fun s => k ≤ s.now where
  same h hs := by rw [h.now]; exact hs
  elapse s hs := hs.trans (s.elapse_now_le 0)
  answered s m r b hs := hs.trans (s.answered_now_le m r b)

/-- The status reads of the engine. -/
def State.statusReads (s : State) : Nat := s.trace.countP isEngineStatusRead

theorem State.statusReads_eq {s t : State} (h : t.trace = s.trace) : t.statusReads = s.statusReads := by
  rw [State.statusReads, State.statusReads, h]

theorem State.answered_statusReads (s : State) (m : Master) (r : PortRequest) (b : Option Byte) :
    (s.answered m r b).statusReads =
      s.statusReads + if isEngineStatusRead { master := m, dir := r.dir, port := r.port, byte := b } then 1 else 0 := by
  rw [State.statusReads, State.answered_trace, List.countP_cons]
  rfl

theorem lasting_statusReads (k : Nat) : Lasting fun s => k ≤ s.statusReads where
  same h hs := by rw [State.statusReads_eq h.trace]; exact hs
  elapse s hs := by rw [State.statusReads_eq (s.elapse_trace 0)]; exact hs
  answered s m r b hs := by rw [State.answered_statusReads]; exact hs.trans (Nat.le_add_right _ _)

/-- In deterministic time, each operation of the trace beyond the first `k` has taken a tick (60_exceptions.md R201). -/
structure Paid (k : Nat) (s : State) : Prop where
  clock : s.env.clock = .deterministic
  ticks : 1 ≤ s.cfg.portOpTicks
  length : s.trace.length ≤ k + s.now

theorem lasting_paid (k : Nat) : Lasting (Paid k) where
  same h hs := ⟨h.clock.trans hs.clock, by rw [h.cfg]; exact hs.ticks, by rw [h.trace, h.now]; exact hs.length⟩
  elapse s hs := by rw [s.elapse_deterministic 0 hs.clock]; exact ⟨hs.clock, hs.ticks, hs.length⟩
  answered s m r b hs := by
    have hticks := hs.ticks
    have hlength := hs.length
    rw [State.answered, s.elapse_deterministic _ hs.clock]
    refine ⟨hs.clock, hticks, ?_⟩
    simp only [List.length_cons]
    omega

end Sys2Proof.Machine

namespace Sys2Proof.Safety

open Sys2Proof.Machine

/-- Deterministic time is fair: no more status reads than ticks, but for those before the run (60_exceptions.md R201). -/
theorem clockFair_of_deterministic {r : Nat → State} (hrun : IsRun r) (hclock : (r 0).env.clock = .deterministic)
    (hticks : 1 ≤ (r 0).cfg.portOpTicks) : ClockFair r := by
  intro hreads k
  obtain ⟨n, hn⟩ := hreads ((r 0).trace.length + k)
  have hpaid : Paid (r 0).trace.length (r n) :=
    (lasting_paid _).run hrun n.zero_le ⟨hclock, hticks, Nat.le_add_right _ _⟩
  have hcount : (r n).trace.countP isEngineStatusRead ≤ (r n).trace.length := List.countP_le_length
  have hlength := hpaid.length
  exact ⟨n, by omega⟩

end Sys2Proof.Safety
end

section
/-! PROOFS. Under a fair clock and with every port operation answered, the engine leaves each step of an operation, so each
poll and each operation ends (60_exceptions.md R202). -/

namespace Sys2Proof.Machine

open Sys2Proof.Safety

/-! ### `BUSY` and `STEP` agree throughout a run (10_state.md R17, R22) -/

/-- `BUSY` is 1 exactly off `IDLE`. -/
def State.BusyFits (s : State) : Prop := s.busy = (s.step != .idle)

theorem State.BusyFits.step_ne_idle {s : State} (h : s.BusyFits) (hbusy : s.busy = true) : s.step ≠ .idle := by
  rw [h, bne_iff_ne] at hbusy
  exact hbusy

theorem State.BusyFits.busy {s : State} (h : s.BusyFits) (hidle : s.step ≠ .idle) : s.busy = true := by
  rw [h, bne_iff_ne]
  exact hidle

theorem State.Off.busyFits {s : State} (h : s.Off) : s.BusyFits := by
  rw [State.BusyFits, h.1, h.2]
  rfl

theorem SameOperation.busyFits {s t : State} (h : SameOperation s t) (hs : s.BusyFits) : t.BusyFits := by
  rw [State.BusyFits, h.busy, h.step]
  exact hs

theorem MovesOn.busyFits {v u : State} (h : MovesOn v u) (hbusy : v.busy = true) : u.BusyFits := by
  cases h with
  | ended => exact State.Off.busyFits ⟨rfl, rfl⟩
  | advanced _ busy idle => rw [State.BusyFits, busy, hbusy, bne_iff_ne.mpr idle]

theorem Ran.busyFits {s u : State} (h : Ran s u) (hs : s.BusyFits) : u.BusyFits := by
  cases h with
  | accepted _ h =>
    cases h with
    | rejects => exact hs
    | reads | writes => rfl
  | other _ r res => exact (s.portOp_sameOperation .other r).busyFits hs
  | rests => exact hs
  | engine idle h =>
    cases h with
    | waits h => exact (State.sameOperation_of_portOp h).busyFits hs
    | stays h => exact (State.sameOperation_of_portOp h).busyFits hs
    | movesOn h moves => exact moves.busyFits ((State.sameOperation_of_portOp h).busy.trans (hs.busy idle))

theorem busyFits_of_step {s t : State} (h : step s = .next t) (hs : s.BusyFits) : t.BusyFits := by
  obtain ⟨u, hran, rfl⟩ := step_cases h
  obtain hoff | hsame := State.afterwards_resetOrUndisturbed s u
  · exact hoff.busyFits
  · exact hsame.busyFits (hran.busyFits hs)

/-! ### One step of a busy engine -/

/-- The engine has left its step, its operation over or with less left to do. -/
structure LeavesStep (s t : State) : Prop where
  step : t.step ≠ s.step
  left : t.busy = true → t.stepsLeft < s.stepsLeft

/-- The engine has made a status read inside its window. -/
structure ReadsInWindow (s t : State) : Prop where
  window : s.now < s.deadline
  reads : s.statusReads < t.statusReads

theorem State.Off.leavesStep {s t : State} (h : t.Off) (hs : s.step ≠ .idle) : LeavesStep s t where
  step := by rw [h.1]; exact hs.symm
  left hbusy := by rw [h.2] at hbusy; cases hbusy

theorem SameOperation.leavesStep {s t u v : State} (hsv : SameOperation s v) (h : LeavesStep v u)
    (hut : SameOperation u t) : LeavesStep s t where
  step := by rw [hut.step, ← hsv.step]; exact h.step
  left hbusy := by
    rw [hut.stepsLeft, ← hsv.stepsLeft]
    exact h.left (hut.busy.symm.trans hbusy)

theorem MovesOn.leavesStep {v u : State} (h : MovesOn v u) (hv : v.step ≠ .idle) : LeavesStep v u := by
  cases h with
  | ended => exact State.Off.leavesStep ⟨rfl, rfl⟩ hv
  | advanced _ _ _ step left => exact ⟨step, fun _ => left⟩

/-- An operation that waits is on the bus, or waits for the one that is. -/
theorem State.outstanding_ne_none_of_pending {s t : State} {m : Master} {r : PortRequest}
    (h : s.portOp m r = (.pending, t)) : t.outstanding ≠ none := by
  rcases s.portOp_cases m r with ⟨k, q, hout, -⟩ | ⟨k, -⟩ | ⟨u, k, -, -, -, -, hout, -⟩ | ⟨u, _, k, -⟩ | ⟨u, k, -⟩
  · rw [k] at h; cases h; rw [hout]; exact nofun
  · rw [k] at h; cases h
  · rw [k] at h; cases h; rw [hout]; exact nofun
  · rw [k] at h; cases h
  · rw [k] at h; cases h

theorem State.readsInWindow_of_ioRead {s t : State} {b : Byte} (h : s.ioRead .engine .sc = (.ok b, t))
    (hopen : t.now < t.deadline) : ReadsInWindow s t := by
  have hport : s.portOp .engine (readRequest s.cfg .sc) = (.ok b, t) := h
  have hnow := s.portOp_now_le .engine (readRequest s.cfg .sc)
  simp only [hport] at hnow
  have hdeadline := (State.sameOperation_of_portOp hport).deadline
  refine ⟨by omega, ?_⟩
  rcases s.portOp_cases .engine (readRequest s.cfg .sc) with
    ⟨k, -⟩ | ⟨k, -⟩ | ⟨u, k, -⟩ | ⟨u, _, k, -⟩ | ⟨u, k, -, -, -, htrace, -⟩
  · rw [k] at hport; cases hport
  · rw [k] at hport; cases hport
  · rw [k] at hport; cases hport
  · rw [k] at hport; cases hport
  · rw [k] at hport; cases hport
    rw [State.statusReads, State.statusReads, htrace, List.countP_cons_of_pos rfl]
    exact Nat.lt_succ_self _

/-- A step of a busy engine with the ports to itself leaves its step; or stays there unanswered, or for a status read whose
window is open (10_state.md R14). -/
theorem busy_step_cases {s t : State} (hfits : s.BusyFits) (hbusy : s.busy = true) (hports : ExclusivePorts s)
    (h : step s = .next t) :
    LeavesStep s t ∨ SameOperation s t ∧ (t.outstanding ≠ none ∨ ReadsInWindow s t) := by
  have hidle := hfits.step_ne_idle hbusy
  obtain ⟨hcalls, -⟩ := hports hbusy
  obtain ⟨u, hran, rfl⟩ := step_cases h
  obtain hoff | hafter := State.afterwards_resetOrUndisturbed s u
  · exact .inl (hoff.leavesStep hidle)
  cases hran with
  | accepted idle => exact absurd idle hidle
  | other calls => exact absurd hcalls calls
  | rests idle => exact absurd idle hidle
  | engine _ h =>
    cases h with
    | waits h =>
      have hwaits := State.outstanding_ne_none_of_pending h
      rw [← hafter.outstanding] at hwaits
      exact .inr ⟨(State.sameOperation_of_portOp h).trans hafter.toSameOperation, .inl hwaits⟩
    | stays h window =>
      obtain ⟨hopen, hreads⟩ := State.readsInWindow_of_ioRead h window
      rw [← State.statusReads_eq hafter.trace] at hreads
      exact .inr ⟨(State.sameOperation_of_portOp h).trans hafter.toSameOperation, .inr ⟨hopen, hreads⟩⟩
    | movesOn h moves =>
      have hsame := State.sameOperation_of_portOp h
      exact .inl (hsame.leavesStep (moves.leavesStep (by rw [hsame.step]; exact hidle)) hafter.toSameOperation)

end Sys2Proof.Machine

namespace Sys2Proof.Safety

open Sys2Proof.Machine

/-! ### Runs -/

theorem busyFits_of_run {r : Nat → State} (hrun : IsRun r) (h : (r 0).BusyFits) : ∀ n, (r n).BusyFits
  | 0 => h
  | n + 1 => busyFits_of_step (hrun n) (busyFits_of_run hrun h n)

/-- What R202 asks of a run, `BUSY` fitting `STEP`. -/
structure FairRun (r : Nat → State) : Prop where
  run : IsRun r
  fits : ∀ n, (r n).BusyFits
  ports : ∀ n, ExclusivePorts (r n)
  clock : ClockFair r
  answered : PortOpsAnswered r

section
variable {r : Nat → State} (h : FairRun r) {n : Nat}
include h

theorem FairRun.step_cases {m : Nat} (hbusy : (r m).busy = true) :
    LeavesStep (r m) (r (m + 1)) ∨
      SameOperation (r m) (r (m + 1)) ∧ ((r (m + 1)).outstanding ≠ none ∨ ReadsInWindow (r m) (r (m + 1))) :=
  busy_step_cases (h.fits m) hbusy (h.ports m) (h.run m)

/-- An engine that never leaves its step reads the status again and again, for its port operations are answered. -/
theorem FairRun.reads_again (hbusy : (r n).busy = true) (hstuck : ∀ m, n ≤ m → SameOperation (r n) (r m)) (m : Nat) :
    ∃ m', m ≤ m' ∧ n ≤ m' ∧ ReadsInWindow (r m') (r (m' + 1)) := by
  obtain ⟨a, ha, hfree⟩ := h.answered (max m n + 1)
  obtain ⟨m', rfl⟩ : ∃ m', a = m' + 1 := ⟨a - 1, by omega⟩
  have hn : n ≤ m' := by omega
  refine ⟨m', by omega, hn, ?_⟩
  obtain hleaves | ⟨-, hwaits | hreads⟩ := h.step_cases ((hstuck m' hn).busy.trans hbusy)
  · exact absurd ((hstuck (m' + 1) (by omega)).step.trans (hstuck m' hn).step.symm) hleaves.step
  · exact absurd hfree hwaits
  · exact hreads

/-- So its status reads grow without bound, and with them the clock, past the window of its poll. -/
theorem FairRun.not_stuck (hbusy : (r n).busy = true) : ¬∀ m, n ≤ m → SameOperation (r n) (r m) := by
  intro hstuck
  have hreads : KeepsReadingStatus r := by
    intro k
    induction k with
    | zero => exact ⟨0, Nat.zero_le _⟩
    | succ k ih =>
      obtain ⟨m, hm⟩ := ih
      obtain ⟨m', hmm', -, hread⟩ := h.reads_again hbusy hstuck m
      exact ⟨m' + 1, ((lasting_statusReads k).run h.run hmm' hm).trans_lt hread.reads⟩
  obtain ⟨m, hm⟩ := h.clock hreads (r n).deadline
  obtain ⟨m', hmm', hnm', hread⟩ := h.reads_again hbusy hstuck m
  have hpast := (lasting_now _).run h.run hmm' hm
  have hopen := hread.window
  rw [(hstuck m' hnm').deadline] at hopen
  exact absurd hpast (Nat.not_le.mpr hopen)

/-- A busy engine leaves its step some time. -/
theorem FairRun.leaves_step (hbusy : (r n).busy = true) : ∃ m, n ≤ m ∧ LeavesStep (r n) (r m) := by
  by_contra hnever
  refine h.not_stuck hbusy fun m hm => ?_
  induction m, hm using Nat.le_induction with
  | base => exact ⟨rfl, rfl, rfl, rfl⟩
  | succ m hm ih =>
    obtain hleaves | ⟨hsame, -⟩ := h.step_cases (ih.busy.trans hbusy)
    · exact absurd ⟨m + 1, hm.trans m.le_succ, ih.leavesStep hleaves ⟨rfl, rfl, rfl, rfl⟩⟩ hnever
    · exact ih.trans hsame

/-- A busy engine becomes idle some time: each step it leaves has less left to do. -/
theorem FairRun.becomes_idle : ∃ m, n ≤ m ∧ (r m).busy = false := by
  induction hk : (r n).stepsLeft using Nat.strong_induction_on generalizing n with
  | h k ih =>
    subst hk
    cases hbusy : (r n).busy with
    | false => exact ⟨n, le_rfl, hbusy⟩
    | true =>
      obtain ⟨m, hnm, hleaves⟩ := h.leaves_step hbusy
      cases hm : (r m).busy with
      | false => exact ⟨m, hnm, hm⟩
      | true =>
        obtain ⟨m', hmm', hidle⟩ := ih _ (hleaves.left hm) rfl
        exact ⟨m', hnm.trans hmm', hidle⟩

end

/-- Settles O58: an engine that stayed in one step would read the status for ever and so outlast its window; and it can
leave only so many steps before its operation ends. -/
theorem everyPollAndOperationEndsUnderAFairClock : Obligations.EveryPollAndOperationEndsUnderAFairClock := by
  unfold Obligations.EveryPollAndOperationEndsUnderAFairClock
  refine ⟨fun r hrun hcons hports hclock hanswered n => ?_, fun r => clockFair_of_deterministic⟩
  have hfair : FairRun r := ⟨hrun, busyFits_of_run hrun hcons.busy_iff, hports, hclock, hanswered⟩
  refine ⟨fun hpoll => ?_, fun _ => hfair.becomes_idle⟩
  have hidle : (r n).step ≠ .idle := by
    intro hidle
    rw [hidle] at hpoll
    cases hpoll
  obtain ⟨m, hnm, hleaves⟩ := hfair.leaves_step ((hfair.fits n).busy hidle)
  exact ⟨m, hnm, hleaves.step⟩

end Sys2Proof.Safety
end

section
/-! PROOFS. The handshake (20_memory.md R53, 70_reset_and_hazards.md R230 to R232): what one port operation adds to the
trace, and that every instruction and all that happens between two steps keeps IBF seen clear before each byte sent and OBF
seen set before each byte taken. -/

namespace Sys2Proof.Machine

open Sys2Proof.Safety

/-! ### What the trace shows of a port operation -/

/-- An unanswered or refused operation leaves no entry, an errored one an entry without a byte, an answered one its byte
(30_encoding.md R73). -/
theorem State.trace_of_portOp {s t : State} {m : Master} {r : PortRequest} {a : PortResult} (h : s.portOp m r = (a, t)) :
    ((∀ b, a ≠ .ok b) ∧ t.trace = s.trace) ∨
    (a = .error ∧ t.trace = { master := m, dir := r.dir, port := r.port, byte := none } :: s.trace) ∨
    (∃ b, a = .ok b ∧ t.trace = { master := m, dir := r.dir, port := r.port, byte := some b } :: s.trace) := by
  rcases s.portOp_cases m r with ⟨k, -⟩ | ⟨k, -⟩ | ⟨u, k, -, -, -, htrace, -⟩ | ⟨u, _, k, -, -, -, htrace, -⟩ |
    ⟨u, k, -, -, -, htrace, -⟩ <;> rw [k] at h <;> cases h
  · exact .inl ⟨nofun, rfl⟩
  · exact .inl ⟨nofun, rfl⟩
  · exact .inl ⟨nofun, htrace⟩
  · exact .inr (.inl ⟨rfl, htrace⟩)
  · exact .inr (.inr ⟨_, rfl, htrace⟩)

theorem State.trace_of_portOp_pending {s t : State} {m : Master} {r : PortRequest} (h : s.portOp m r = (.pending, t)) :
    t.trace = s.trace := by
  obtain ⟨-, htrace⟩ | ⟨herror, -⟩ | ⟨_, hok, -⟩ := State.trace_of_portOp h
  · exact htrace
  · cases herror
  · cases hok

theorem State.trace_of_portOp_ok {s t : State} {m : Master} {r : PortRequest} {b : Byte} (h : s.portOp m r = (.ok b, t)) :
    t.trace = { master := m, dir := r.dir, port := r.port, byte := some b } :: s.trace := by
  obtain ⟨hno, -⟩ | ⟨herror, -⟩ | ⟨_, hok, htrace⟩ := State.trace_of_portOp h
  · exact absurd rfl (hno b)
  · cases herror
  · cases hok; exact htrace

/-- Off `IDLE`, with no other master's call, a step runs what `STEP` names (10_state.md R13). -/
theorem step_cases_of_no_call {s t : State} (hidle : s.step ≠ .idle) (hcalls : s.calls = []) (h : step s = .next t) :
    ∃ i u, decode s.cfg .step (stepCode s.step).toNat = .ok i ∧ exec i s = .next u ∧ t = (s.retire u).betweenSteps := by
  have hfetch : s.fetch = decode s.cfg .step (stepCode s.step).toNat := by
    simp [State.fetch, State.accepts, State.nextCall, hidle, hcalls]
  unfold step at h
  rw [hfetch] at h
  split at h
  · cases h
  · next i hi =>
    split at h
    · next u hu => cases h; exact ⟨i, u, hi, hu, rfl⟩
    · cases h
    · cases h

end Sys2Proof.Machine

namespace Sys2Proof.Safety

open Sys2Proof.Machine

/-! ### A port operation preceded as the rule asks keeps the rule for the whole trace -/

theorem handshakeKept_of_portOp {s t : State} {m : Master} {r : PortRequest} {a : PortResult}
    (h : s.portOp m r = (a, t)) (hkept : handshakeKept s.cfg s.trace = true)
    (hwell : ∀ b, precededWell s.cfg { master := m, dir := r.dir, port := r.port, byte := b } s.trace = true) :
    handshakeKept t.cfg t.trace = true := by
  have hmoved : OnlyBusMoved s t := State.onlyBus_of_portOp h
  have hcfg : t.cfg = s.cfg := by rw [hmoved]
  rw [hcfg]
  obtain ⟨-, htrace⟩ | ⟨-, htrace⟩ | ⟨b, -, htrace⟩ := State.trace_of_portOp h <;> rw [htrace]
  · exact hkept
  · rw [handshakeKept, hwell, hkept, Bool.and_self]
  · rw [handshakeKept, hwell, hkept, Bool.and_self]

theorem Handshake.kept {s : State} (hs : Handshake s) : handshakeKept s.cfg s.trace = true := hs.1

theorem Handshake.seen {s : State} (hs : Handshake s) : seenBefore s.cfg s.rdata s.trace s.step = true := hs.2

/-- A step that waits for its answer has seen what it had seen before. -/
theorem Handshake.of_portOp_pending {s t : State} {m : Master} {r : PortRequest} (hs : Handshake s)
    (h : s.portOp m r = (.pending, t)) : Handshake t := by
  have hmoved : OnlyBusMoved s t := State.onlyBus_of_portOp h
  rw [hmoved, State.trace_of_portOp_pending h]
  exact hs

/-- An ended operation sends and takes nothing more. -/
theorem handshake_complete {s : State} (hkept : handshakeKept s.cfg s.trace = true) (kind : ResKind) (stage : Stage)
    (data : Half) : Handshake (s.complete kind stage data) :=
  ⟨hkept, rfl⟩

/-- No poll step asks for anything to have been seen. -/
theorem seenBefore_of_isPollStep {st : Step} (hp : isPollStep st = true) (cfg : Params) (rdata : Byte)
    (trace : List PortEvent) : seenBefore cfg rdata trace st = true := by
  cases st <;> cases hp <;> rfl

theorem pollSatisfied_of_ne_r5 {st : Step} (hst : st ≠ .r5) (cfg : Params) (b : Byte) :
    pollSatisfied cfg st b = !ibfFlag cfg b := by
  cases st
  case r5 => exact absurd rfl hst
  all_goals rfl

/-- The flag a poll step has just seen is the one its next step asks for. -/
theorem handshake_pollNext {st : Step} {v : State} {b : Byte} {before : List PortEvent} (hp : isPollStep st = true)
    (htrace : v.trace = { master := .engine, dir := .read, port := .sc, byte := some b } :: before)
    (hkept : handshakeKept v.cfg v.trace = true) (hsat : pollSatisfied v.cfg st b = true) : Handshake (pollNext st v) := by
  have hlast : ∀ f : Byte → Bool, lastStatus f v.trace = f b := fun f => by rw [htrace]; rfl
  cases st <;> cases hp
  case w7 => exact handshake_complete hkept _ _ _
  all_goals exact ⟨hkept, (hlast _).trans hsat⟩

/-- The completion of a read ends the operation or enters the poll of `R1`. -/
theorem handshake_readCompletion {fe : Fe} {finish : State → State} {v : State}
    (hfinish : readCompletion fe = some finish) (hkept : handshakeKept v.cfg v.trace = true) : Handshake (finish v) := by
  cases fe <;> cases hfinish
  case rawRd | rpmMsb => exact handshake_complete hkept _ _ _
  case rpmLsb => exact ⟨hkept, rfl⟩
  case temp => dsimp only; split <;> exact handshake_complete hkept _ _ _

/-! ### The engine's own steps, by their shape -/

section
variable {s : State} {st : Step} (hs : Handshake s)
include hs

/-- A step with one plain port operation, the answer's continuation still to be judged. -/
theorem Handshake.of_portStep {r : PortRequest} {next : Byte → State → State}
    (hwell : ∀ b, precededWell s.cfg { master := .engine, dir := r.dir, port := r.port, byte := b } s.trace = true)
    (hnext : ∀ b v, s.portOp .engine r = (.ok b, v) → handshakeKept v.cfg v.trace = true → Handshake (next b v)) :
    Handshake (portStep next (s.portOp .engine r)) := by
  rcases h : s.portOp .engine r with ⟨a, v⟩
  have hv := handshakeKept_of_portOp h hs.kept hwell
  cases a with
  | ok b => exact hnext b v h hv
  | error => exact handshake_complete hv _ _ _
  | pending => exact hs.of_portOp_pending h

/-- A sending step: the IBF it has seen clear is what its byte asks for, and it enters a poll. -/
theorem Handshake.of_send {target : Step} (hst : s.step = st) (htarget : isPollStep target = true) (p : Port) (v : Nat)
    (hsends : ∀ cfg rdata trace, seenBefore cfg rdata trace st = lastStatus (fun b => !ibfFlag cfg b) trace) :
    Handshake (portStep (fun _ => State.enterPoll target) (s.ioWrite .engine p v)) := by
  refine hs.of_portStep (fun b => ?_) fun b v _ hkept => ⟨hkept, seenBefore_of_isPollStep htarget _ _ _⟩
  have hseen := hs.seen
  rw [hst, hsends] at hseen
  cases p <;> exact hseen

/-- `R6`: the OBF it has seen set is what its read asks for, and the byte it takes is the newest of the trace. -/
theorem Handshake.of_take (hst : s.step = .r6) :
    Handshake (portStep (fun b t => ({ t with rdata := b } : State).goto .r7) (s.ioRead .engine .data)) := by
  refine hs.of_portStep (fun b => ?_) fun b v h hkept => ⟨hkept, ?_⟩
  · have hseen := hs.seen
    rw [hst] at hseen
    exact hseen
  · simp [seenBefore, State.trace_of_portOp_ok h, readRequest]

/-- A poll step: unsatisfied, it stays where nothing need have been seen. -/
theorem Handshake.of_poll {mask : Byte} {want : Bool} (hst : s.step = st) (hp : isPollStep st = true) (stage : Stage)
    (hflag : ∀ b, flagOf b mask = want → pollSatisfied s.cfg st b = true) :
    Handshake (pollStep stage (pollNext st) (s.pollIteration .engine mask want)) := by
  rcases h : s.ioRead .engine .sc with ⟨a, v⟩
  have hport : s.portOp .engine (readRequest s.cfg .sc) = (a, v) := h
  have hv := handshakeKept_of_portOp hport hs.kept fun _ => rfl
  have hmoved : OnlyBusMoved s v := State.onlyBus_of_portOp hport
  have hcfg : v.cfg = s.cfg := by rw [hmoved]
  have hpoll : isPollStep v.step = true := by rw [hmoved, hst]; exact hp
  cases a with
  | ok b =>
    rw [State.pollIteration_ok h]
    split
    · next hseen =>
      refine handshake_pollNext hp (State.trace_of_portOp_ok hport) hv ?_
      rw [hcfg]
      exact hflag b hseen
    · split
      · exact handshake_complete hv _ _ _
      · exact ⟨hv, seenBefore_of_isPollStep hpoll _ _ _⟩
  | error => rw [State.pollIteration_error h]; exact handshake_complete hv _ _ _
  | pending => rw [State.pollIteration_pending h]; exact hs.of_portOp_pending hport

theorem Handshake.of_waitIbfClear (hst : s.step = st) (hp : isPollStep st = true) (hne : st ≠ .r5) (stage : Stage) :
    Handshake (pollStep stage (pollNext st) (s.waitIbfClear .engine)) := by
  refine hs.of_poll hst hp stage fun b hclear => ?_
  rw [pollSatisfied_of_ne_r5 hne, ibfFlag, hclear]
  rfl

/-- `R7`: its status read asks for nothing, and its completion ends the operation or begins another transaction
(44_derived_operations.md R143). -/
theorem Handshake.of_stepR7 {u : State} (h : exec .stepR7 s = .next u) : Handshake u := by
  have hexec : execStepR7 s = .next u := h
  unfold execStepR7 at hexec
  split at hexec
  · next finish hfinish =>
    cases hexec
    exact hs.of_portStep (fun _ => rfl) fun _ v _ hv => handshake_readCompletion hfinish hv
  · cases hexec
  · next t _ herror => cases hexec; exact handshake_complete (handshakeKept_of_portOp herror hs.kept fun _ => rfl) _ _ _
  · next t _ hpending => cases hexec; exact hs.of_portOp_pending hpending

/-- Whatever step `STEP` names, but `IDLE`, keeps the handshake. -/
theorem Handshake.of_exec {u : State} {i : Instr} (hidle : s.step ≠ .idle) (hfe : feFits s.step s.fe = true)
    (hi : decode s.cfg .step (stepCode s.step).toNat = .ok i) (h : exec i s = .next u) : Handshake u := by
  cases hst : s.step <;> rw [hst] at hi hfe <;> cases hi
  case idle => exact absurd hst hidle
  case r7 => exact hs.of_stepR7 h
  case w7 =>
    have hended : exec .stepW7 s = _ := execStepW7_eq hfe
    rw [hended] at h
    cases h
    exact hs.of_waitIbfClear (st := .w7) hst rfl nofun _
  all_goals cases h
  case r1 => exact hs.of_waitIbfClear (st := .r1) hst rfl nofun _
  case r2 => exact hs.of_send hst rfl _ _ fun _ _ _ => rfl
  case r3 => exact hs.of_waitIbfClear (st := .r3) hst rfl nofun _
  case r4 => exact hs.of_send hst rfl _ _ fun _ _ _ => rfl
  case r5 => exact hs.of_poll (st := .r5) hst rfl _ fun _ hset => hset
  case r6 => exact hs.of_take hst
  case w1 => exact hs.of_waitIbfClear (st := .w1) hst rfl nofun _
  case w2 => exact hs.of_send hst rfl _ _ fun _ _ _ => rfl
  case w3 => exact hs.of_waitIbfClear (st := .w3) hst rfl nofun _
  case w4 => exact hs.of_send hst rfl _ _ fun _ _ _ => rfl
  case w5 => exact hs.of_waitIbfClear (st := .w5) hst rfl nofun _
  case w6 => exact hs.of_send hst rfl _ _ fun _ _ _ => rfl

end

/-! ### An idle engine, and what happens between two steps -/

/-- An idle engine makes no port operation, and those of another master are not the rule's. -/
theorem Handshake.of_ran_idle {s u : State} (hs : Handshake s) (hidle : s.step = .idle) (h : Ran s u) : Handshake u := by
  cases h with
  | accepted _ h =>
    cases h with
    | rejects => exact hs
    | reads | writes => exact ⟨hs.kept, rfl⟩
  | other _ r res =>
    have hother := handshakeKept_of_portOp (m := .other) (r := r) rfl hs.kept fun _ => rfl
    exact ⟨hother, by simp [hidle, seenBefore]⟩
  | rests => exact hs
  | engine hrun => exact absurd hidle hrun

theorem Handshake.hostMoved {s t : State} (hs : Handshake s) (h : HostMoved s t) : Handshake t := by
  rw [h]
  exact hs

theorem Handshake.elapse {s : State} (hs : Handshake s) (n : Nat) : Handshake (s.elapse n) := by
  simpa [Handshake] using hs

/-- A reset leaves the trace, and an idle engine need not have seen anything (70_reset_and_hazards.md R222). -/
theorem Handshake.applyEvent {s : State} (hs : Handshake s) (e : EnvEvent) : Handshake (s.applyEvent e) := by
  obtain ⟨b, -, hreset⟩ | hmoved := s.applyEvent_cases e
  · rw [hreset, State.loopReset_loop]
    exact ⟨hs.kept, rfl⟩
  · exact hs.hostMoved hmoved

theorem Handshake.foldl_applyEvent {s : State} (hs : Handshake s) (batch : List EnvEvent) :
    Handshake (batch.foldl State.applyEvent s) := by
  induction batch generalizing s with
  | nil => exact hs
  | cons e batch ih => exact ih (hs.applyEvent e)

theorem Handshake.applyBatch {s : State} (hs : Handshake s) : Handshake s.applyBatch := by
  unfold State.applyBatch
  split
  · exact hs
  · next batch rest _ =>
    have htaken : Handshake { s with inputs := rest } := hs
    exact htaken.foldl_applyEvent batch

theorem Handshake.betweenSteps {s : State} (hs : Handshake s) : Handshake s.betweenSteps :=
  ((hs.hostMoved (s.endStrobe_hostMoved.trans (State.loopReact_hostMoved _))).elapse 0).applyBatch

/-- Settles O41: a busy engine has the ports to itself and runs the step `STEP` names; an idle one makes no port
operation. -/
theorem stepKeepsTheHandshake : Obligations.StepKeepsTheHandshake := by
  unfold Obligations.StepKeepsTheHandshake
  intro s t hports hcons hs h
  obtain ⟨u, hu, rfl⟩ : ∃ u, Handshake u ∧ t = (s.retire u).betweenSteps := by
    by_cases hidle : s.step = .idle
    · obtain ⟨u, hran, rfl⟩ := step_cases h
      exact ⟨u, hs.of_ran_idle hidle hran, rfl⟩
    · have hfits : s.BusyFits := hcons.busy_iff
      obtain ⟨hcalls, -⟩ := hports (hfits.busy hidle)
      obtain ⟨i, u, hi, hexec, rfl⟩ := step_cases_of_no_call hidle hcalls h
      exact ⟨u, hs.of_exec hidle hcons.fe_fits hi hexec, rfl⟩
  exact (hu.hostMoved (s.retire_hostMoved u)).betweenSteps

end Sys2Proof.Safety
end

section
/-! PROOFS. Reset (70_reset_and_hazards.md R220 to R222): what it leaves of the engine, the bus and the EC. -/

namespace Sys2Proof.Machine

open Sys2Proof.Safety

/-- A reset takes the engine's own request off the bus (70_reset_and_hazards.md R220). -/
theorem State.keptRequest_ne_engine (s : State) (r : PortRequest) : s.keptRequest ≠ some (.engine, r) := by
  unfold State.keptRequest
  cases hwaits : s.engineWaits with
  | true => exact nofun
  | false =>
    intro hout
    simp only [Bool.false_eq_true, if_false] at hout
    simp [State.engineWaits, hout] at hwaits

theorem State.abandonPortOp_of_offBus {s : State} (h : EngineOffBus s) (reached : Bool) :
    s.abandonPortOp reached = s.env := by
  unfold State.abandonPortOp
  split
  · rfl
  · next r hout => exact absurd hout (h r)
  · rfl

theorem State.abandonPortOp_of_engine {s : State} {r : PortRequest} (h : s.outstanding = some (.engine, r))
    (reached : Bool) : s.abandonPortOp reached = if reached then (s.reachEc r).2 else s.env := by
  unfold State.abandonPortOp
  rw [h]

/-- The registers of the reset table (10_state.md R28), and nothing of the engine's on the bus. -/
structure ResetDone (t : State) : Prop where
  step : t.step = .idle
  fe : t.fe = .none
  busy : t.busy = false
  done : t.done = false
  res : t.res = 0
  timeout : t.timeout = timeoutReset t.cfg
  offBus : EngineOffBus t

theorem State.reset_resetDone : ResetDone State.reset where
  step := rfl
  fe := rfl
  busy := rfl
  done := rfl
  res := rfl
  timeout := by simp only [State.reset]
  offBus := nofun

theorem State.engineReset_resetDone (s : State) (reached : Bool) : ResetDone (s.engineReset reached) :=
  ⟨rfl, rfl, rfl, rfl, rfl, rfl, s.keptRequest_ne_engine⟩

/-- What the control loop makes of a reset is no matter of the engine's. -/
theorem ResetDone.loopReset {s : State} (h : ResetDone s) : ResetDone s.loopReset := by
  rw [State.loopReset_loop]
  exact ⟨h.step, h.fe, h.busy, h.done, h.res, h.timeout, h.offBus⟩

/-- An idle engine without a request and without another master's call is at `STEP_IDLE` (10_state.md R22). -/
theorem State.fetch_of_idle {s : State} (hidle : s.step = .idle) (hcalls : s.calls = []) (hstart : s.start = false) :
    s.fetch = .ok .stepIdle := by
  have hdecode : decode s.cfg .step (stepCode .idle).toNat = .ok .stepIdle := rfl
  simp [State.fetch, State.accepts, State.nextCall, hidle, hcalls, hstart, hdecode]

/-- `TIMEOUT_RESET` is the ceiling of `TIMEOUT_MS * TICK_HZ / 1000` where that fits the register (60_exceptions.md
R203). -/
theorem timeoutReset_toNat {p : Params} (h : (p.k.timeoutMs * p.tickHz + 999) / 1000 < 2 ^ 32) :
    (timeoutReset p).toNat = (p.k.timeoutMs * p.tickHz + 999) / 1000 := by
  rw [timeoutReset, BitVec.toNat_ofNat, Nat.mod_eq_of_lt h]

end Sys2Proof.Machine

namespace Sys2Proof.Safety

open Sys2Proof.Machine

/-- Settles O7: after a reset the engine is idle and off the bus, so without a request its step has nothing to do. -/
theorem resetLeavesTheEngineIdle : Obligations.ResetLeavesTheEngineIdle := by
  unfold Obligations.ResetLeavesTheEngineIdle
  refine ⟨fun t ht => ?_, fun s b => ⟨rfl, rfl, rfl, rfl, fun hoff => ?_⟩, fun p hfits => ?_⟩
  · have hdone : ResetDone t := by
      obtain rfl | ⟨s, b, rfl | rfl⟩ := ht
      · exact State.reset_resetDone
      · exact s.engineReset_resetDone b
      · exact (s.engineReset_resetDone b).loopReset
    refine ⟨hdone.step, hdone.fe, hdone.busy, hdone.done, hdone.res, hdone.timeout, hdone.offBus,
      State.fetch_of_idle hdone.step, fun hstart => exec_stepIdle_rests ?_⟩
    rw [State.accepts, hstart, Bool.and_false]
  · have henv := State.abandonPortOp_of_offBus hoff b
    simp only [State.engineReset, henv]
  · rw [timeoutReset_toNat hfits]
    omega

/-- Settles O8: the EC sees of a reset only the operation in flight, if that had its effect. -/
theorem resetMidOperationGivesNoResult : Obligations.ResetMidOperationGivesNoResult := by
  unfold Obligations.ResetMidOperationGivesNoResult
  intro s b _
  have hec (reached : Bool) : (s.engineReset reached).env.ec = (s.abandonPortOp reached).ec := rfl
  have hdone := s.engineReset_resetDone b
  refine ⟨hdone.step, hdone.fe, hdone.busy, hdone.done, hdone.res, hdone.offBus, rfl, fun hoff => ?_, fun r hout => ?_⟩
  · rw [hec, State.abandonPortOp_of_offBus hoff]
  · rw [hec, hec, State.abandonPortOp_of_engine hout, State.abandonPortOp_of_engine hout]
    exact ⟨rfl, rfl⟩

end Sys2Proof.Safety
end

section
/-! PROOFS. The host's write of `TIMEOUT` (70_reset_and_hazards.md R237): only a poll entry looks at that register. -/

namespace Sys2Proof.Machine

theorem State.elapse_writeTimeout (s : State) (v : BitVec 32) (n : Nat) :
    (s.writeTimeout v).elapse n = (s.elapse n).writeTimeout v := by
  have hclock : (s.writeTimeout v).env.clock = s.env.clock := rfl
  unfold State.elapse
  rw [hclock]
  split <;> rfl

theorem State.answered_writeTimeout (s : State) (v : BitVec 32) (m : Master) (r : PortRequest) (b : Option Byte) :
    (s.writeTimeout v).answered m r b = (s.answered m r b).writeTimeout v := by
  unfold State.answered
  rw [State.elapse_writeTimeout]
  rfl

/-- A port operation goes as it would have gone, and leaves the new `TIMEOUT`. -/
theorem State.portOp_writeTimeout (s : State) (v : BitVec 32) (m : Master) (r : PortRequest) :
    (s.writeTimeout v).portOp m r = ((s.portOp m r).1, (s.portOp m r).2.writeTimeout v) := by
  have hheld : (s.writeTimeout v).busHeld m r = s.busHeld m r := rfl
  have hrefuses : (s.writeTimeout v).palRefuses = s.palRefuses := rfl
  have hmech : (s.writeTimeout v).mechanism r = s.mechanism r := rfl
  have hreach : (s.writeTimeout v).reachEc r = s.reachEc r := rfl
  have hplan (u : State) : (u.writeTimeout v).usePlan = u.usePlan.writeTimeout v := rfl
  have henv (env : Environment) :
      ({ s.writeTimeout v with env := env } : State) = ({ s with env := env } : State).writeTimeout v := rfl
  unfold State.portOp
  simp only [hheld, hrefuses, hmech, hreach, henv, hplan, State.answered_writeTimeout, State.elapse_writeTimeout]
  split
  · rfl
  split
  · rfl
  split <;> rfl

/-- So does a poll iteration, which compares the clock with `DEADLINE` (41_polling.md R110). -/
theorem State.pollIteration_writeTimeout (s : State) (v : BitVec 32) (m : Master) (mask : Byte) (want : Bool) :
    (s.writeTimeout v).pollIteration m mask want =
      ((s.pollIteration m mask want).1, (s.pollIteration m mask want).2.writeTimeout v) := by
  have hread : (s.writeTimeout v).ioRead m .sc = ((s.ioRead m .sc).1, (s.ioRead m .sc).2.writeTimeout v) :=
    s.portOp_writeTimeout v m _
  rcases h : s.ioRead m .sc with ⟨a, t⟩
  rw [h] at hread
  cases a with
  | ok b =>
    rw [State.pollIteration_ok h, State.pollIteration_ok hread, State.writeTimeout_deadline, State.writeTimeout_now]
  | error => rw [State.pollIteration_error h, State.pollIteration_error hread]
  | pending => rw [State.pollIteration_pending h, State.pollIteration_pending hread]

end Sys2Proof.Machine

namespace Sys2Proof.Safety

open Sys2Proof.Machine

/-- Settles O54: a poll iteration goes as without the write, and a poll entry adds the new value to the clock. -/
theorem timeoutWriteChangesOnlyTimeout : Obligations.TimeoutWriteChangesOnlyTimeout := by
  unfold Obligations.TimeoutWriteChangesOnlyTimeout
  intro s m v mask want st
  have hevent : s.applyEvent (.writeTimeout v) = s.writeTimeout v := rfl
  rw [hevent, State.pollIteration_writeTimeout]
  exact ⟨rfl, rfl, rfl, State.writeTimeout_deadline _ v, rfl⟩

end Sys2Proof.Safety
end

section
/-! PROOFS. The decoder and the encoder undo each other on every channel (30_encoding.md section 1). -/

namespace Sys2Proof

/-! ### Fields of a word -/

theorem byteOf_toNat (b : Byte) : byteOf b.toNat 0 = b := by
  simp [byteOf]

theorem toNat_byteOf_zero {w : Nat} (h : w < 2 ^ 8) : (byteOf w 0).toNat = w := by
  simpa [byteOf] using h

@[simp] theorem byteOf_one_reqWord (op : Nat) (a b : Byte) : byteOf (reqWord op a b) 1 = a := (byteOf_reqWord op a b).1

@[simp] theorem byteOf_zero_reqWord (op : Nat) (a b : Byte) : byteOf (reqWord op a b) 0 = b :=
  (byteOf_reqWord op a b).2.1

@[simp] theorem reqWord_div (op : Nat) (a b : Byte) : reqWord op a b / 2 ^ 16 = op := (byteOf_reqWord op a b).2.2

/-- A word is its operation field and its two bytes. -/
theorem reqWord_fields (w : Nat) : reqWord (w / 2 ^ 16) (byteOf w 1) (byteOf w 0) = w := by
  simp only [reqWord, byteOf, BitVec.toNat_ofNat]
  omega

theorem reqWord_eq_of_div {w op : Nat} (h : w / 2 ^ 16 = op) : reqWord op (byteOf w 1) (byteOf w 0) = w := by
  rw [← h, reqWord_fields]

/-- A `PORTOP` word has its fields where a `REQ` word has them, one operation bit instead of three. -/
theorem portopWord_eq_reqWord (dir : Nat) (port byte : Byte) : portopWord dir port byte = reqWord dir port byte := rfl

/-! ### Encoding, then decoding -/

theorem decode_reqWord (p : Params) {op : Nat} (h : op < 8) (a b : Byte) :
    decode p .req (reqWord op a b) = decodeReq (reqWord op a b) :=
  decode_req (Laws.FitsFormat.reqWord_lt op h a b)

theorem decode_portopWord (p : Params) {dir : Nat} (h : dir < 2) (port byte : Byte) :
    decode p .portop (portopWord dir port byte) = decodePortop p (portopWord dir port byte) :=
  decode_portop (Laws.FitsFormat.portopWord_lt dir h port byte)

theorem Params.dataPort_ne_scPort {cfg : Params} (hwf : cfg.wf = true) : cfg.k.dataPort ≠ cfg.k.scPort := by
  simp only [Params.wf, Bool.and_eq_true, bne_iff_ne] at hwf
  obtain ⟨⟨⟨⟨-, hport⟩, -⟩, -⟩, -⟩ := hwf
  exact hport

/-- A request decodes from its word under any parameters, for none stand in it. -/
theorem decode_encode_req {i : Instr} (hi : i.channel = .req) (p : Params) : decode p .req (encode p i) = .ok i := by
  cases i <;> cases hi <;> simp only [encode] <;> rw [decode_reqWord p (by decide), decodeReq] <;>
    simp only [reqWord_div, byteOf_one_reqWord, byteOf_zero_reqWord]

theorem decode_encode {p : Params} {i : Instr} (hp : p.wf = true) (hi : i.WellFormed p = true) :
    decode p i.channel (encode p i) = .ok i := by
  have hport : (p.k.dataPort == p.k.scPort) = false := beq_false_of_ne (Params.dataPort_ne_scPort hp)
  have hcmd := Params.cmdWrite_ne_cmdRead hp
  cases i with
  | readRegister | writeRegister | fanRpmRead | tempRead | fanLevelWrite | reservedOp5 | reservedOp6 | reservedOp7 =>
    exact decode_encode_req rfl p
  | rdEc | wrEc =>
    simp only [Instr.channel, encode]
    rw [decode_cmd (BitVec.isLt _)]
    simp [decodeCmd, byteOf_toNat, hcmd]
  | inStatus x | inData x | outCmd x | outData x =>
    simp only [Instr.channel, encode]
    rw [decode_portopWord p (by decide), portopWord_eq_reqWord]
    simp [decodePortop, hport, -Nat.reducePow]
  | waitIbfClear x =>
    have hclear : x &&& p.ibfMask = 0 := by simpa [Instr.WellFormed] using hi
    simp only [Instr.channel, encode]
    rw [decode_pollIbf x.isLt, decodePollIbf, byteOf_toNat, if_pos hclear]
  | waitObfSet x =>
    have hset : ¬x &&& p.obfMask = 0 := by simpa [Instr.WellFormed] using hi
    simp only [Instr.channel, encode]
    rw [decode_pollObf x.isLt, decodePollObf, byteOf_toNat, if_neg hset]
  | _ => rfl

/-! ### Decoding, then encoding -/

theorem encode_decodeReq {w : Nat} {i : Instr} (p : Params) (h : decodeReq w = .ok i) : encode p i = w := by
  unfold decodeReq at h
  split at h <;> cases h <;> exact reqWord_eq_of_div ‹_›

theorem encode_decodeCmd {p : Params} {w : Nat} {i : Instr} (hw : w < 2 ^ 8) (h : decodeCmd p w = .ok i) :
    encode p i = w := by
  have hbyte := toNat_byteOf_zero hw
  unfold decodeCmd at h
  split at h
  · next hread => cases h; rw [encode, ← hread, hbyte]
  · split at h
    · next hwrite => cases h; rw [encode, ← hwrite, hbyte]
    · cases h

theorem encode_decodePortop {p : Params} {w : Nat} {i : Instr} (h : decodePortop p w = .ok i) : encode p i = w := by
  have hword {dir : Nat} {port : Byte} (hdir : w / 2 ^ 16 = dir) (hport : (byteOf w 1 == port) = true) :
      portopWord dir port (byteOf w 0) = w := by
    rw [← beq_iff_eq.mp hport]
    exact reqWord_eq_of_div hdir
  unfold decodePortop at h
  split at h <;> cases h <;> exact hword ‹_› ‹_›

/-- The byte of a `STATUS` row is the pattern, and it satisfies its poll (30_encoding.md R71). -/
theorem encode_decodePollIbf {p : Params} {w : Nat} {i : Instr} (hw : w < 2 ^ 8) (h : decodePollIbf p w = .ok i) :
    i.WellFormed p = true ∧ encode p i = w := by
  unfold decodePollIbf at h
  split at h
  · next hclear => cases h; exact ⟨beq_iff_eq.mpr hclear, toNat_byteOf_zero hw⟩
  · cases h

theorem encode_decodePollObf {p : Params} {w : Nat} {i : Instr} (hw : w < 2 ^ 8) (h : decodePollObf p w = .ok i) :
    i.WellFormed p = true ∧ encode p i = w := by
  unfold decodePollObf at h
  split at h
  · cases h
  · next hset => cases h; exact ⟨bne_iff_ne.mpr hset, toNat_byteOf_zero hw⟩

theorem encode_decodeStep {w : Nat} {i : Instr} (p : Params) (h : decodeStep w = .ok i) : encode p i = w := by
  unfold decodeStep at h
  split at h <;> cases h <;> rfl

/-- Only the two `STATUS` rows ask more of an instruction than its format. -/
theorem wellFormed_of_channel {i : Instr} (p : Params) (hibf : i.channel ≠ .pollIbf) (hobf : i.channel ≠ .pollObf) :
    i.WellFormed p = true := by
  cases i
  case waitIbfClear => exact absurd rfl hibf
  case waitObfSet => exact absurd rfl hobf
  all_goals rfl

theorem encode_of_decode {p : Params} {ch : Channel} {w : Nat} {i : Instr} (h : decode p ch w = .ok i) :
    i.WellFormed p = true ∧ encode p i = w := by
  have hch := channel_of_decode h
  have hlt := decode_lt h
  have hformat (hibf : ch ≠ .pollIbf) (hobf : ch ≠ .pollObf) : i.WellFormed p = true :=
    wellFormed_of_channel p (by rwa [hch]) (by rwa [hch])
  cases ch with
  | req => rw [decode_req hlt] at h; exact ⟨hformat nofun nofun, encode_decodeReq p h⟩
  | cmd => rw [decode_cmd hlt] at h; exact ⟨hformat nofun nofun, encode_decodeCmd hlt h⟩
  | portop => rw [decode_portop hlt] at h; exact ⟨hformat nofun nofun, encode_decodePortop h⟩
  | pollIbf => rw [decode_pollIbf hlt] at h; exact encode_decodePollIbf hlt h
  | pollObf => rw [decode_pollObf hlt] at h; exact encode_decodePollObf hlt h
  | step => rw [decode_step hlt] at h; exact ⟨hformat nofun nofun, encode_decodeStep p h⟩

/-! ### What decodes at all -/

/-- Every `REQ` word is a request (30_encoding.md R75). -/
theorem exists_decodeReq {w : Nat} (h : w < 2 ^ 19) : ∃ i, decodeReq w = .ok i := by
  have hop : w / 2 ^ 16 < 8 := by omega
  unfold decodeReq
  interval_cases w / 2 ^ 16 <;> exact ⟨_, rfl⟩

/-- The only unused code of `STEP` is 8 (30_encoding.md R78, R89). -/
theorem exists_decodeStep_iff {w : Nat} (h : w < 16) : (∃ i, decodeStep w = .ok i) ↔ w ≠ 8 := by
  interval_cases w <;> simp [decodeStep]

end Sys2Proof

namespace Sys2Proof.Safety

open Sys2Proof.Machine

/-- Settles O2: every row decodes from the fields its encoding put there. -/
theorem decodeOfEncodeIsTheInstruction : Obligations.DecodeOfEncodeIsTheInstruction := by
  unfold Obligations.DecodeOfEncodeIsTheInstruction
  exact fun p i hp hi => decode_encode hp hi

/-- Settles O3: a word is put together again from the fields the decoder read. -/
theorem encodeOfDecodeIsTheWord : Obligations.EncodeOfDecodeIsTheWord := by
  unfold Obligations.EncodeOfDecodeIsTheWord
  intro p ch w i h
  obtain ⟨hwf, hword⟩ := encode_of_decode h
  exact ⟨hwf, channel_of_decode h, hword⟩

/-- Settles O1: the decoder reads each word. -/
theorem wordsFromTheTablesDecode : Obligations.WordsFromTheTablesDecode := by
  unfold Obligations.WordsFromTheTablesDecode
  decide

/-- Settles O4: all eight values of `OP` are rows, and all codes of `STEP` but one. -/
theorem everyRequestWordAndUsedStepCodeDecodes : Obligations.EveryRequestWordAndUsedStepCodeDecodes := by
  unfold Obligations.EveryRequestWordAndUsedStepCodeDecodes
  refine fun p => ⟨fun w hw => ?_, fun w hw => ?_, fun st => ?_⟩
  · rw [decode_req hw]
    exact exists_decodeReq hw
  · rw [decode_step hw]
    exact exists_decodeStep_iff hw
  · cases st <;> exact ⟨_, rfl⟩

end Sys2Proof.Safety
end

section
/-! PROOFS. Result words and the values the front end puts into them (30_encoding.md R76, R82, R83). -/

namespace Sys2Proof.Machine

open Sys2Proof.Safety

theorem resKind_packRes (kind : ResKind) (stage : Stage) (data : Half) :
    resKind (packRes kind stage data) = kindCode kind :=
  (BitVec.extractLsb'_append_eq_of_le (w := 16) (by decide)).trans BitVec.extractLsb'_append_eq_left

theorem resStage_packRes (kind : ResKind) (stage : Stage) (data : Half) :
    resStage (packRes kind stage data) = stageCode stage :=
  (BitVec.extractLsb'_append_eq_of_le (w := 16) (by decide)).trans BitVec.extractLsb'_append_eq_right

theorem resData_packRes (kind : ResKind) (stage : Stage) (data : Half) : resData (packRes kind stage data) = data :=
  BitVec.extractLsb'_append_eq_right

theorem kindOfCode_kindCode (kind : ResKind) : kindOfCode (kindCode kind) = some kind := by
  cases kind <;> rfl

/-- The code 0 names `Ok` and no other does (30_encoding.md R80). -/
theorem kindOfCode_eq_ok_iff (c : BitVec 3) : kindOfCode c = some .ok ↔ c = 0 := by
  revert c; decide

/-! ### The result words an operation ends with (30_encoding.md R89) -/

theorem resFits_ok (data : Half) : resFits (packRes .ok .none data) = true := by
  rw [resFits, resKind_packRes, kindOfCode_kindCode, resStage_packRes]
  rfl

theorem resFits_timedOut {stage : Stage} (h : stage ≠ .none) : resFits (packRes .ecTimeout stage 0) = true := by
  cases stage
  case none => exact absurd rfl h
  all_goals rfl

end Sys2Proof.Machine

namespace Sys2Proof.Safety

open Sys2Proof.Machine

/-- Settles O32: the three fields are packed side by side. -/
theorem resultFieldsReadBack : Obligations.ResultFieldsReadBack := by
  unfold Obligations.ResultFieldsReadBack
  exact fun k g d => ⟨resKind_packRes k g d, resStage_packRes k g d, resData_packRes k g d, kindOfCode_kindCode k⟩

/-- Settles O33: two bytes fit a halfword, and the sign of a byte is its bit 7. -/
theorem rpmAndTemperatureValues : Obligations.RpmAndTemperatureValues := by
  unfold Obligations.RpmAndTemperatureValues
  refine ⟨fun msb lsb => ?_, fun b => ?_⟩
  · have hmsb := msb.isLt
    have hlsb := lsb.isLt
    have habsent : Constants.source.rpmAbsent.toNat = 0xFFFF := rfl
    rw [rpmValue_eq, habsent]
    split
    · rfl
    · rw [BitVec.toNat_ofNat, Nat.mod_eq_of_lt (by omega)]
  · have hext : (sext16 b).toInt = b.toInt := BitVec.toInt_signExtend_of_le (by decide)
    rw [hext, BitVec.toInt_eq_toNat_cond]
    split <;> split <;> omega

end Sys2Proof.Safety
end

section
/-! PROOFS. What every instruction does, whatever state it runs in, said once: it rests, accepts a request, makes a port
operation of another master, or makes the one of a step of a transaction and goes on by its answer (10_state.md R13,
R14). -/

namespace Sys2Proof.Machine

open Sys2Proof.Safety

/-! ### The steps of the two transactions -/

/-- The instruction a step's code names (30_encoding.md R78). -/
def stepInstr : Step → Instr
  | .idle => .stepIdle
  | .r1 => .stepR1
  | .r2 => .stepR2
  | .r3 => .stepR3
  | .r4 => .stepR4
  | .r5 => .stepR5
  | .r6 => .stepR6
  | .r7 => .stepR7
  | .w1 => .stepW1
  | .w2 => .stepW2
  | .w3 => .stepW3
  | .w4 => .stepW4
  | .w5 => .stepW5
  | .w6 => .stepW6
  | .w7 => .stepW7

theorem decode_stepCode (p : Params) (st : Step) : decode p .step (stepCode st).toNat = .ok (stepInstr st) := by
  cases st <;> rfl

theorem stepInstr_channel (st : Step) : (stepInstr st).channel = .step := by
  cases st <;> rfl

/-- The request a step makes: the command, offset or value byte it sends, the data byte it takes, else a status read
(42_read_transaction.md R121 to R127, 43_write_transaction.md R131 to R137). -/
def engineRequest (st : Step) (s : State) : PortRequest :=
  match st with
  | .r2 => writeRequest s.cfg .sc s.cfg.k.cmdRead
  | .w2 => writeRequest s.cfg .sc s.cfg.k.cmdWrite
  | .r4 => writeRequest s.cfg .data s.offset
  | .w4 => writeRequest s.cfg .data s.offset
  | .w6 => writeRequest s.cfg .data s.wdata
  | .r6 => readRequest s.cfg .data
  | _ => readRequest s.cfg .sc

/-- The step after a poll satisfied or a byte sent. -/
def nextStep : Step → Option Step
  | .r1 => some .r2
  | .r2 => some .r3
  | .r3 => some .r4
  | .r4 => some .r5
  | .r5 => some .r6
  | .w1 => some .w2
  | .w2 => some .w3
  | .w3 => some .w4
  | .w4 => some .w5
  | .w5 => some .w6
  | .w6 => some .w7
  | _ => none

/-- How step `st` goes on once its port operation has left `v`. -/
inductive Continues (st : Step) (v : State) : State → Prop
  | stays (h : isPollStep st = true ∨ v.outstanding ≠ none) : Continues st v v
  | ends {kind : ResKind} {stage : Stage} {data : Half} (h : resFits (packRes kind stage data) = true) :
      Continues st v (v.complete kind stage data)
  | goes {target : Step} (deadline : Nat) (h : nextStep st = some target) :
      Continues st v { v with step := target, deadline := deadline }
  | takes (b : Byte) (h : st = .r6) : Continues st v { v with rdata := b, step := .r7 }
  | repeats (h : st = .r7) (hfe : v.fe = .rpmLsb) :
      Continues st v
        (({ v with lsb := v.rdata, offset := v.cfg.k.regRpmMsb, fe := .rpmMsb } : State).enterPoll .r1)

section
variable {st : Step} {s : State}

theorem State.ioWrite_toNat (s : State) (m : Master) (p : Port) (b : Byte) :
    s.ioWrite m p b.toNat = s.portOp m (writeRequest s.cfg p b) := by
  rw [State.ioWrite, lowByte, BitVec.ofNat_toNat, BitVec.setWidth_eq]

theorem engineRequest_of_isPollStep (hp : isPollStep st = true) (s : State) :
    engineRequest st s = readRequest s.cfg .sc := by
  cases st <;> cases hp <;> rfl

theorem pollStage_ne_none (hp : isPollStep st = true) : pollStage st ≠ .none := by
  cases st <;> cases hp <;> exact nofun

/-- A poll step goes to the next step, or `W7` ends its operation. -/
theorem continues_pollNext (hp : isPollStep st = true) (v : State) : Continues st v (pollNext st v) := by
  cases st <;> cases hp
  case w7 => exact .ends rfl
  all_goals exact .goes v.deadline rfl

theorem Continues.of_poll {mask : Byte} {want : Bool} (hp : isPollStep st = true) :
    Continues st (s.portOp .engine (engineRequest st s)).2
      (pollStep (pollStage st) (pollNext st) (s.pollIteration .engine mask want)) := by
  rw [engineRequest_of_isPollStep hp]
  rcases h : s.ioRead .engine .sc with ⟨a, v⟩
  have hport : s.portOp .engine (readRequest s.cfg .sc) = (a, v) := h
  rw [hport]
  cases a with
  | ok b =>
    rw [State.pollIteration_ok h]
    split
    · exact continues_pollNext hp v
    · split
      · exact .ends (resFits_timedOut (pollStage_ne_none hp))
      · exact .stays (.inl hp)
  | error => rw [State.pollIteration_error h]; exact .ends rfl
  | pending => rw [State.pollIteration_pending h]; exact .stays (.inl hp)

theorem Continues.of_port {next : Byte → State → State}
    (hnext : ∀ b v, SameOperation s v → Continues st v (next b v)) :
    Continues st (s.portOp .engine (engineRequest st s)).2
      (portStep next (s.portOp .engine (engineRequest st s))) := by
  rcases h : s.portOp .engine (engineRequest st s) with ⟨a, v⟩
  cases a with
  | ok b => exact hnext b v (State.sameOperation_of_portOp h)
  | error => exact .ends rfl
  | pending => exact .stays (.inr (State.outstanding_ne_none_of_pending h))

theorem Continues.of_send {p : Port} {b : Byte} {target : Step}
    (hreq : engineRequest st s = writeRequest s.cfg p b) (hnext : nextStep st = some target) :
    Continues st (s.portOp .engine (engineRequest st s)).2
      (portStep (fun _ => State.enterPoll target) (s.ioWrite .engine p b.toNat)) := by
  rw [State.ioWrite_toNat, ← hreq]
  exact .of_port fun _ v _ => .goes _ hnext

/-- A completion of a read ends the operation, or begins the second half of a fan RPM read (44_derived_operations.md
R143). -/
theorem continues_readCompletion {v : State} {finish : State → State} (hfinish : readCompletion v.fe = some finish) :
    Continues .r7 v (finish v) := by
  cases hfe : v.fe <;> rw [hfe] at hfinish <;> cases hfinish
  case rawRd | rpmMsb => exact .ends (resFits_ok _)
  case temp => dsimp only; split <;> [exact .ends rfl; exact .ends (resFits_ok _)]
  case rpmLsb => exact .repeats rfl hfe

theorem Continues.of_stepR7 {u : State} (h : exec .stepR7 s = .next u) :
    Continues .r7 (s.portOp .engine (engineRequest .r7 s)).2 u := by
  rcases hread : s.ioRead .engine .sc with ⟨a, v⟩
  have hport : s.portOp .engine (engineRequest .r7 s) = (a, v) := hread
  rw [hport]
  cases a with
  | error => rw [exec_stepR7_error hread] at h; cases h; exact .ends rfl
  | pending =>
    rw [exec_stepR7_pending hread] at h; cases h
    exact .stays (.inr (State.outstanding_ne_none_of_pending hport))
  | ok b =>
    cases hfe : readCompletion s.fe with
    | none => simp only [exec, execStepR7, hread, hfe] at h; cases h
    | some finish =>
      rw [exec_stepR7_ok hread hfe] at h; cases h
      refine continues_readCompletion ?_
      rw [(State.sameOperation_of_portOp hport).fe, hfe]

/-- Where `W7` does not stop, it ends its operation as a poll step ends (43_write_transaction.md R137). -/
theorem exec_stepW7_of_next {u : State} (h : exec .stepW7 s = .next u) :
    u = pollStep .ibfAfterData (State.complete .ok .none 0) (s.waitIbfClear .engine) := by
  cases hfe : writeCompletion s.fe with
  | some finish =>
    have hended : exec .stepW7 s = _ := execStepW7_eq (by rw [hfe]; rfl)
    rw [hended] at h; cases h; rfl
  | none =>
    rcases hwait : s.waitIbfClear .engine with ⟨r, t⟩
    by_cases hr : r = .satisfied
    · subst hr
      simp only [exec, execStepW7, hfe, hwait] at h; cases h
    · rw [exec_stepW7_unsatisfied hwait hr (State.complete .ok .none 0)] at h; cases h; rfl

/-- Every step of a transaction makes its request and goes on by the answer. -/
theorem Continues.of_exec {u : State} (hidle : st ≠ .idle) (h : exec (stepInstr st) s = .next u) :
    Continues st (s.portOp .engine (engineRequest st s)).2 u := by
  cases st
  case idle => exact absurd rfl hidle
  case r7 => exact .of_stepR7 h
  case w7 => rw [exec_stepW7_of_next h]; exact .of_poll rfl
  all_goals cases h
  case r1 | r3 | r5 | w1 | w3 | w5 => exact .of_poll rfl
  case r6 => exact .of_port fun b _ _ => .takes b rfl
  case r2 | r4 | w2 | w4 | w6 => exact .of_send rfl rfl

/-- A step whose request waits for its answer changes nothing more (70_reset_and_hazards.md R240). -/
theorem exec_stepInstr_pending {v : State} (hidle : st ≠ .idle)
    (h : s.portOp .engine (engineRequest st s) = (.pending, v)) : exec (stepInstr st) s = .next v := by
  have hpoll {mask : Byte} {want : Bool} {stage : Stage} {next : State → State} (hp : isPollStep st = true) :
      pollStep stage next (s.pollIteration .engine mask want) = v := by
    rw [engineRequest_of_isPollStep hp] at h
    rw [State.pollIteration_pending h]; rfl
  have hsend {next : Byte → State → State} {p : Port} {b : Byte} (hreq : engineRequest st s = writeRequest s.cfg p b) :
      portStep next (s.ioWrite .engine p b.toNat) = v := by
    rw [State.ioWrite_toNat, ← hreq, h]; rfl
  have htake {next : Byte → State → State} :
      portStep next (s.portOp .engine (engineRequest st s)) = v := by rw [h]; rfl
  cases st
  case idle => exact absurd rfl hidle
  case r7 => exact exec_stepR7_pending h
  case w7 => exact exec_stepW7_unsatisfied (State.pollIteration_pending h _ _) nofun id
  all_goals refine congrArg Host.Outcome.next ?_
  case r1 | r3 | r5 | w1 | w3 | w5 => exact hpoll rfl
  case r2 | r4 | w2 | w4 | w6 => exact hsend rfl
  case r6 => exact htake

/-- A step whose operation is one of its transaction does not stop. -/
theorem exec_stepInstr_isNext (hfe : feFits st s.fe = true) : ∃ u, exec (stepInstr st) s = .next u := by
  cases st
  case w7 => exact ⟨_, execStepW7_eq hfe⟩
  case r7 =>
    obtain ⟨finish, hfinish⟩ := Option.isSome_iff_exists.mp (hfe : (readCompletion s.fe).isSome = true)
    rcases hread : s.ioRead .engine .sc with ⟨a, v⟩
    cases a with
    | ok b => exact ⟨_, exec_stepR7_ok hread hfinish⟩
    | error => exact ⟨_, exec_stepR7_error hread⟩
    | pending => exact ⟨_, exec_stepR7_pending hread⟩
  all_goals exact ⟨_, rfl⟩

end

/-! ### Requests -/

/-- What the accept step leaves: a rejection, or the begin of an operation of the transaction, its operands as it asks
(44_derived_operations.md R140). -/
inductive Begins (s : State) : State → Prop
  | rejects : Begins s s.reject
  | reads {fe : Fe} {o : Byte} (hfe : (readCompletion fe).isSome = true)
      (hfront : frontEndFits s.cfg.hasFrontEnd fe = true) (hfits : operandsFit s.cfg.k fe o s.wdata = true) :
      Begins s (s.beginRead fe o)
  | writes {fe : Fe} {o v : Byte} (hfe : (writeCompletion fe).isSome = true)
      (hfront : frontEndFits s.cfg.hasFrontEnd fe = true) (hfits : operandsFit s.cfg.k fe o v = true) :
      Begins s (s.beginWrite fe o v)

theorem acceptRpm_begins (s : State) : Begins s (acceptRpm s) := by
  unfold acceptRpm
  split
  · next hfront => exact .reads rfl hfront (beq_self_eq_true _)
  · exact .rejects

theorem acceptTemp_begins (i : Byte) (s : State) : Begins s (acceptTemp i s) := by
  unfold acceptTemp
  split
  · next h =>
    rw [Bool.and_eq_true] at h
    refine .reads rfl h.1 ?_
    have hindex : tempOffset s.cfg.k i - s.cfg.k.tempBase = i := by
      rw [tempOffset, BitVec.add_comm, BitVec.add_sub_cancel]
    rw [operandsFit, hindex]
    exact h.2
  · exact .rejects

theorem acceptLevel_begins (l : Byte) (s : State) : Begins s (acceptLevel l s) := by
  unfold acceptLevel
  split
  · next h =>
    rw [Bool.and_eq_true] at h
    exact .writes rfl h.1 (by rw [operandsFit, beq_self_eq_true, h.2, Bool.and_self])
  · exact .rejects

/-- A request does something only at an idle engine (10_state.md R17). -/
theorem begins_of_acceptWith {s u : State} {f : State → State} (h : Begins s (f s)) (hu : s.acceptWith f = u) :
    u = s ∨ (s.step = .idle ∧ s.busy = false) ∧ Begins s u := by
  unfold State.acceptWith at hu
  split at hu
  · next hidle => exact .inr ⟨hidle, hu ▸ h⟩
  · exact .inl hu.symm

theorem begins_of_exec_req {s u : State} {i : Instr} (hi : i.channel = .req) (h : exec i s = .next u) :
    u = s ∨ (s.step = .idle ∧ s.busy = false) ∧ Begins s u := by
  cases i <;> cases hi <;> cases h
  case readRegister => exact begins_of_acceptWith (.reads rfl rfl rfl) rfl
  case writeRegister => exact begins_of_acceptWith (.writes rfl rfl rfl) rfl
  case fanRpmRead => exact begins_of_acceptWith (acceptRpm_begins s) rfl
  case tempRead => exact begins_of_acceptWith (acceptTemp_begins _ s) rfl
  case fanLevelWrite => exact begins_of_acceptWith (acceptLevel_begins _ s) rfl
  case reservedOp5 | reservedOp6 | reservedOp7 => exact begins_of_acceptWith .rejects rfl

/-- The request word means to the accept step what it decodes to (44_derived_operations.md R140). -/
theorem decodeReq_acceptWord (req : BitVec 19) (s : State) :
    ∃ i, decodeReq req.toNat = .ok i ∧ exec i s = .next (s.acceptWith (acceptWord req)) := by
  have hop : req.toNat / 2 ^ 16 < 8 := by have := req.isLt; omega
  unfold decodeReq acceptWord
  interval_cases req.toNat / 2 ^ 16 <;> exact ⟨_, rfl, rfl⟩

/-- With a strobe `STEP_IDLE` runs the request word, and it does nothing without one (10_state.md R22). -/
theorem exec_stepIdle_strobed {s : State} (h : s.start = true) :
    ∃ i, decode s.cfg .req s.req.toNat = .ok i ∧ exec .stepIdle s = exec i s := by
  obtain ⟨i, hi, hexec⟩ := decodeReq_acceptWord s.req s
  refine ⟨i, (decode_req s.req.isLt).trans hi, ?_⟩
  rw [hexec]
  exact congrArg Host.Outcome.next (if_pos h)

theorem exec_stepIdle_unstrobed {s : State} (h : s.start = false) : exec .stepIdle s = .next s :=
  exec_stepIdle_rests (by rw [State.accepts, h, Bool.and_false])

/-! ### Every instruction -/

theorem exec_otherMaster {i : Instr} (hi : ownChannel i.channel = false) (s : State) :
    ∃ r res, exec i s = .next { (s.portOp .other r).2 with primResult := res } := by
  cases i <;> cases hi
  case waitIbfClear => exact ⟨_, _, congrArg Host.Outcome.next (recordPoll_eq s .other _ _)⟩
  case waitObfSet => exact ⟨_, _, congrArg Host.Outcome.next (recordPoll_eq s .other _ _)⟩
  all_goals exact ⟨_, _, rfl⟩

/-- What an instruction does. -/
inductive Executed (i : Instr) (s : State) : State → Prop
  | rests (hi : i.channel = .req ∨ i = .stepIdle) : Executed i s s
  | accepts {u : State} (hi : i.channel = .req ∨ i = .stepIdle) (hidle : s.step = .idle) (hbusy : s.busy = false)
      (h : Begins s u) : Executed i s u
  | other (hi : ownChannel i.channel = false) (r : PortRequest) (res : PrimResult) :
      Executed i s { (s.portOp .other r).2 with primResult := res }
  | engine {u : State} {st : Step} (hst : st ≠ .idle) (hi : i = stepInstr st)
      (h : Continues st (s.portOp .engine (engineRequest st s)).2 u) : Executed i s u

theorem Executed.of_begins {i : Instr} {s u : State} (hi : i.channel = .req ∨ i = .stepIdle)
    (h : u = s ∨ (s.step = .idle ∧ s.busy = false) ∧ Begins s u) : Executed i s u := by
  obtain rfl | ⟨⟨hidle, hbusy⟩, hu⟩ := h
  · exact .rests hi
  · exact .accepts hi hidle hbusy hu

/-- The step whose code names an instruction of the `STEP` channel. -/
theorem exists_stepInstr {i : Instr} (hi : i.channel = .step) : ∃ st, i = stepInstr st := by
  cases i <;> cases hi
  case stepIdle => exact ⟨.idle, rfl⟩
  case stepR1 => exact ⟨.r1, rfl⟩
  case stepR2 => exact ⟨.r2, rfl⟩
  case stepR3 => exact ⟨.r3, rfl⟩
  case stepR4 => exact ⟨.r4, rfl⟩
  case stepR5 => exact ⟨.r5, rfl⟩
  case stepR6 => exact ⟨.r6, rfl⟩
  case stepR7 => exact ⟨.r7, rfl⟩
  case stepW1 => exact ⟨.w1, rfl⟩
  case stepW2 => exact ⟨.w2, rfl⟩
  case stepW3 => exact ⟨.w3, rfl⟩
  case stepW4 => exact ⟨.w4, rfl⟩
  case stepW5 => exact ⟨.w5, rfl⟩
  case stepW6 => exact ⟨.w6, rfl⟩
  case stepW7 => exact ⟨.w7, rfl⟩

/-- The inversion of `exec`. -/
theorem exec_cases {i : Instr} {s u : State} (h : exec i s = .next u) : Executed i s u := by
  cases hch : i.channel with
  | req => exact .of_begins (.inl hch) (begins_of_exec_req hch h)
  | cmd | portop | pollIbf | pollObf =>
    have hother : ownChannel i.channel = false := by rw [hch]; rfl
    obtain ⟨r, res, hexec⟩ := exec_otherMaster hother s
    rw [hexec] at h; cases h
    exact .other hother r res
  | step =>
    obtain ⟨st, rfl⟩ := exists_stepInstr hch
    by_cases hst : st = .idle
    · subst hst
      cases hstart : s.start with
      | false =>
        have hrests : exec (stepInstr .idle) s = .next s := exec_stepIdle_unstrobed hstart
        rw [hrests] at h; cases h
        exact .rests (.inr rfl)
      | true =>
        obtain ⟨i, hi, hexec⟩ := exec_stepIdle_strobed hstart
        have hrun : exec i s = .next u := hexec.symm.trans h
        exact .of_begins (.inr rfl) (begins_of_exec_req (channel_of_decode hi) hrun)
    · exact .engine hst rfl (.of_exec hst h)

/-- The instruction a step of the machine fetches: the strobed request at an idle engine, another master's call, or the
one `STEP` names (10_state.md R13, R22). -/
theorem fetch_cases {s : State} {i : Instr} (h : s.fetch = .ok i) :
    (i.channel = .req ∧ s.step = .idle ∧ s.busy = false ∧ s.start = true) ∨
    (ownChannel i.channel = false ∧ s.calls ≠ [] ∧ s.engineWaits = false) ∨ i = stepInstr s.step := by
  unfold State.fetch at h
  split at h
  · next haccepts =>
    obtain ⟨⟨hidle, hbusy⟩, hstart⟩ : (s.step = .idle ∧ s.busy = false) ∧ s.start = true := by
      simpa [State.accepts] using haccepts
    exact .inl ⟨channel_of_decode h, hidle, hbusy, hstart⟩
  · next haccepts =>
    split at h
    · next c hcall =>
      right; left
      rw [channel_of_decode h]
      have hwaits : s.engineWaits = false := by
        cases hw : s.engineWaits with
        | false => rfl
        | true => simp [State.nextCall, hw] at hcall
      refine ⟨by cases c.channel <;> rfl, fun hnil => ?_, hwaits⟩
      simp [State.nextCall, hnil] at hcall
    · rw [decode_stepCode] at h; cases h
      exact .inr (.inr rfl)

/-- The inversion of a step: an instruction was fetched and ran, its call ended if it was one, and the environment
acted. -/
theorem step_exec {s t : State} (h : step s = .next t) :
    ∃ i u, s.fetch = .ok i ∧ exec i s = .next u ∧ t = (s.retire u).betweenSteps := by
  unfold step at h
  split at h
  · cases h
  · next i hi =>
    split at h
    · next u hu => cases h; exact ⟨i, u, hi, hu, rfl⟩
    · cases h
    · cases h

theorem step_of_exec {s u : State} {i : Instr} (hi : s.fetch = .ok i) (hu : exec i s = .next u) :
    step s = .next (s.retire u).betweenSteps := by
  simp only [step, hi, hu]

end Sys2Proof.Machine

namespace Sys2Proof.Safety

open Sys2Proof.Machine

/-- Settles O14: the accept step reads from the word the operation and operands that decoding reads. -/
theorem idleAcceptsTheStrobedRequest : Obligations.IdleAcceptsTheStrobedRequest := by
  unfold Obligations.IdleAcceptsTheStrobedRequest
  exact fun s => ⟨exec_stepIdle_unstrobed, exec_stepIdle_strobed⟩

end Sys2Proof.Safety
end

section
/-! PROOFS. What the instructions leave alone, and what the fetched one does to the engine (10_state.md R11 to R14, R18,
R19). -/

namespace Sys2Proof.Machine

open Sys2Proof.Safety

/-! ### Frames of every instruction -/

/-- The registers and inputs that only the host and the environment write (10_state.md R12). -/
structure SameHost (s t : State) : Prop where
  timeout : t.timeout = s.timeout
  req : t.req = s.req
  start : t.start = s.start
  palReady : t.palReady = s.palReady
  cfg : t.cfg = s.cfg
  inputs : t.inputs = s.inputs
  loop : t.loop = s.loop
  calls : t.calls = s.calls

theorem State.portOp_sameHost (s : State) (m : Master) (r : PortRequest) : SameHost s (s.portOp m r).2 :=
  ⟨s.portOp_timeout m r, s.portOp_req m r, s.portOp_start m r, s.portOp_palReady m r, s.portOp_cfg m r,
    s.portOp_inputs m r, s.portOp_loop m r, s.portOp_calls m r⟩

theorem SameHost.trans {s t u : State} (h : SameHost s t) (k : SameHost t u) : SameHost s u :=
  ⟨k.timeout.trans h.timeout, k.req.trans h.req, k.start.trans h.start, k.palReady.trans h.palReady,
    k.cfg.trans h.cfg, k.inputs.trans h.inputs, k.loop.trans h.loop, k.calls.trans h.calls⟩

theorem Continues.sameHost {st : Step} {v u : State} (h : Continues st v u) : SameHost v u := by
  cases h <;> exact ⟨rfl, rfl, rfl, rfl, rfl, rfl, rfl, rfl⟩

theorem Begins.sameHost {s u : State} (h : Begins s u) : SameHost s u := by
  cases h <;> exact ⟨rfl, rfl, rfl, rfl, rfl, rfl, rfl, rfl⟩

theorem Executed.sameHost {i : Instr} {s u : State} (h : Executed i s u) : SameHost s u := by
  cases h with
  | rests => exact ⟨rfl, rfl, rfl, rfl, rfl, rfl, rfl, rfl⟩
  | accepts _ _ _ h => exact h.sameHost
  | other _ r res =>
    have hport := s.portOp_sameHost .other r
    exact ⟨hport.timeout, hport.req, hport.start, hport.palReady, hport.cfg, hport.inputs, hport.loop, hport.calls⟩
  | engine _ _ h => exact (s.portOp_sameHost _ _).trans h.sameHost

/-- Who writes the data registers among the steps of a transaction (10_state.md R11). -/
structure Continues.Registers (st : Step) (v u : State) : Prop where
  offset : u.offset = v.offset ∨ st = .r7 ∧ v.fe = .rpmLsb
  wdata : u.wdata = v.wdata
  rdata : u.rdata = v.rdata ∨ st = .r6
  lsb : u.lsb = v.lsb ∨ st = .r7 ∧ v.fe = .rpmLsb

theorem Continues.registers {st : Step} {v u : State} (h : Continues st v u) : Continues.Registers st v u := by
  cases h with
  | stays | ends | goes => exact ⟨.inl rfl, rfl, .inl rfl, .inl rfl⟩
  | takes b h => exact ⟨.inl rfl, rfl, .inr h, .inl rfl⟩
  | repeats h hfe => exact ⟨.inr ⟨h, hfe⟩, rfl, .inl rfl, .inr ⟨h, hfe⟩⟩

/-- The accept step takes nothing from the EC and ends no read. -/
theorem Begins.rdata_lsb {s u : State} (h : Begins s u) : u.rdata = s.rdata ∧ u.lsb = s.lsb := by
  cases h <;> exact ⟨rfl, rfl⟩

/-- A result is written with the end of an operation or a rejection (60_exceptions.md R190). -/
theorem Continues.res {st : Step} {v u : State} (h : Continues st v u) :
    u.res = v.res ∨ u.done = true ∧ u.busy = false ∧ u.step = .idle := by
  cases h with
  | ends => exact .inr ⟨rfl, rfl, rfl⟩
  | stays | goes | takes | repeats => exact .inl rfl

theorem Begins.res {s u : State} (h : Begins s u) (hidle : s.step = .idle) (hbusy : s.busy = false) :
    u.res = s.res ∨ u.done = true ∧ u.busy = false ∧ u.step = .idle := by
  cases h with
  | rejects => exact .inr ⟨rfl, hbusy, hidle⟩
  | reads | writes => exact .inl rfl

/-! ### The fetched instruction -/

/-- What the fetched instruction does. -/
inductive Performs (i : Instr) (s : State) : State → Prop
  | rests (hown : ownChannel i.channel = true) (hidle : s.step = .idle) : Performs i s s
  | accepts {u : State} (hown : ownChannel i.channel = true) (hidle : s.step = .idle) (hbusy : s.busy = false)
      (h : Begins s u) : Performs i s u
  | other (hother : ownChannel i.channel = false) (hcalls : s.calls ≠ []) (hwaits : s.engineWaits = false)
      (r : PortRequest) (res : PrimResult) : Performs i s { (s.portOp .other r).2 with primResult := res }
  | engine {u : State} (hown : ownChannel i.channel = true) (hidle : s.step ≠ .idle)
      (h : Continues s.step (s.portOp .engine (engineRequest s.step s)).2 u) : Performs i s u

theorem Performs.of_begins {i : Instr} {s u : State} (hown : ownChannel i.channel = true) (hidle : s.step = .idle)
    (h : u = s ∨ (s.step = .idle ∧ s.busy = false) ∧ Begins s u) : Performs i s u := by
  obtain rfl | ⟨⟨-, hbusy⟩, hu⟩ := h
  · exact .rests hown hidle
  · exact .accepts hown hidle hbusy hu

theorem Performs.of_fetch {s u : State} {i : Instr} (hi : s.fetch = .ok i) (h : exec i s = .next u) :
    Performs i s u := by
  obtain ⟨hch, hidle, -⟩ | ⟨hother, hcalls, hwaits⟩ | rfl := fetch_cases hi
  · exact .of_begins (by rw [hch]; rfl) hidle (begins_of_exec_req hch h)
  · obtain ⟨r, res, hexec⟩ := exec_otherMaster hother s
    rw [hexec] at h; cases h
    exact .other hother hcalls hwaits r res
  · have hown : ownChannel (stepInstr s.step).channel = true := by rw [stepInstr_channel]; rfl
    by_cases hidle : s.step = .idle
    · cases exec_cases h with
      | rests => exact .rests hown hidle
      | accepts _ _ hbusy h => exact .accepts hown hidle hbusy h
      | other hi => exact nomatch hown.symm.trans hi
      | engine hst hi =>
        rw [hidle] at hi
        rename_i st _
        cases st <;> cases hi
        exact absurd rfl hst
    · exact .engine hown hidle (.of_exec hidle h)

/-- The moves of a step of a transaction (10_state.md R14). -/
theorem Continues.step_moves {st : Step} {v u : State} (h : Continues st v u) (hv : v.step = st) (hst : st ≠ .idle) :
    stepEdge st u.step = true ∨ u.step = st ∧ (isPollStep st = true ∨ u.outstanding ≠ none) := by
  cases h with
  | stays h => exact .inr ⟨hv, h⟩
  | ends =>
    left
    cases st
    case idle => exact absurd rfl hst
    all_goals rfl
  | goes _ h => left; cases st <;> cases h <;> rfl
  | takes _ h => subst h; exact .inl rfl
  | repeats h => subst h; exact .inl rfl

end Sys2Proof.Machine

namespace Sys2Proof.Safety

open Sys2Proof.Machine

/-- Settles O47: no instruction's meaning writes these fields. -/
theorem instructionsLeaveHostAndInputsAlone : Obligations.InstructionsLeaveHostAndInputsAlone := by
  unfold Obligations.InstructionsLeaveHostAndInputsAlone
  intro i s t h
  have hsame := (exec_cases h).sameHost
  exact ⟨hsame.timeout, hsame.req, hsame.start, hsame.palReady, hsame.cfg, hsame.inputs, hsame.loop, hsame.calls⟩

/-- Settles O48: the accept step writes the operands, `R6` the byte taken, and `R7` begins the second half of a fan RPM
read. -/
theorem dataRegistersAreWrittenOnlyByTheirSteps : Obligations.DataRegistersAreWrittenOnlyByTheirSteps := by
  unfold Obligations.DataRegistersAreWrittenOnlyByTheirSteps
  intro i s t h
  cases exec_cases h with
  | rests => exact ⟨absurd rfl, absurd rfl, absurd rfl, absurd rfl⟩
  | accepts hi _ _ h =>
    obtain ⟨hrdata, hlsb⟩ := h.rdata_lsb
    exact ⟨fun _ => hi.imp_right .inl, fun _ => hi, absurd hrdata, absurd hlsb⟩
  | other _ r =>
    exact ⟨absurd (s.portOp_offset .other r), absurd (s.portOp_wdata .other r), absurd (s.portOp_rdata .other r),
      absurd (s.portOp_lsb .other r)⟩
  | engine _ hi h =>
    obtain ⟨hoffset, hwdata, hrdata, hlsb⟩ := h.registers
    rw [State.portOp_offset, State.portOp_fe] at hoffset
    rw [State.portOp_wdata] at hwdata
    rw [State.portOp_rdata] at hrdata
    rw [State.portOp_lsb, State.portOp_fe] at hlsb
    refine ⟨fun hne => ?_, absurd hwdata, fun hne => ?_, fun hne => ?_⟩
    · obtain ⟨rfl, hfe⟩ := hoffset.resolve_left hne
      exact .inr (.inr ⟨hi, hfe⟩)
    · rw [hi, hrdata.resolve_left hne]; rfl
    · obtain ⟨rfl, hfe⟩ := hlsb.resolve_left hne
      exact ⟨hi, hfe⟩

/-- Settles O49: `RES` is written by `State.complete` and by a rejection in the accept step, both of which leave the
engine idle and done. -/
theorem resultsAreWrittenOnlyOnCompletion : Obligations.ResultsAreWrittenOnlyOnCompletion := by
  unfold Obligations.ResultsAreWrittenOnlyOnCompletion
  intro i s t h hne
  cases exec_cases h with
  | rests => exact absurd rfl hne
  | accepts _ hidle hbusy h => exact (h.res hidle hbusy).resolve_left hne
  | other _ r => exact absurd (s.portOp_res .other r) hne
  | engine _ _ h => exact h.res.resolve_left (by rwa [State.portOp_res])

/-- Settles O46: an accept step begins a transaction or stays idle, and the steps of a transaction move as
`Continues.step_moves` says. -/
theorem stepRegisterMovesAsTheTableSays : Obligations.StepRegisterMovesAsTheTableSays := by
  unfold Obligations.StepRegisterMovesAsTheTableSays
  intro s t i hi h
  cases Performs.of_fetch hi h with
  | rests hown hidle => exact ⟨fun _ => .inr ⟨rfl, .inl hidle⟩, fun hother => nomatch hown.symm.trans hother⟩
  | accepts hown hidle _ h =>
    refine ⟨fun _ => ?_, fun hother => nomatch hown.symm.trans hother⟩
    cases h with
    | rejects => exact .inr ⟨rfl, .inl hidle⟩
    | reads | writes => rw [hidle]; exact .inl rfl
  | other hother _ _ r => exact ⟨fun hown => (nomatch hown.symm.trans hother), fun _ => s.portOp_step .other r⟩
  | engine hown hidle h =>
    refine ⟨fun _ => ?_, fun hother => nomatch hown.symm.trans hother⟩
    obtain hedge | ⟨hstay, hwhy⟩ := h.step_moves (s.portOp_step _ _) hidle
    · exact .inl hedge
    · exact .inr ⟨hstay, .inr (hwhy.imp_right Option.isSome_iff_ne_none.mpr)⟩

end Sys2Proof.Safety
end

section
/-! PROOFS. Invariants of a step: what the environment's acts between two steps keep, once for every predicate, and the
agreement of the engine's registers (10_state.md R15, R17 to R19, R22). -/

namespace Sys2Proof.Machine

open Sys2Proof.Safety

/-! ### Kept between two steps -/

/-- `P` outlives whatever the host does, a passage of time, a batch of events taken, and a reset. -/
structure KeptBetween (P : State → Prop) : Prop where
  host : ∀ {s t : State}, HostMoved s t → P s → P t
  inputs : ∀ {s : State} (rest : List (List EnvEvent)), P s → P { s with inputs := rest }
  elapse : ∀ {s : State}, P s → P (s.elapse 0)
  reset : ∀ {s : State} (reached : Bool), P s → P (s.engineReset reached)

theorem State.loopReset_hostMoved (s : State) : HostMoved s s.loopReset := by
  unfold HostMoved
  rw [State.loopReset_loop]

section
variable {P : State → Prop} (hP : KeptBetween P)
include hP

theorem KeptBetween.applyEvent {s : State} (hs : P s) (e : EnvEvent) : P (s.applyEvent e) := by
  obtain ⟨b, -, hreset⟩ | hmoved := s.applyEvent_cases e
  · rw [hreset]
    exact hP.host (State.loopReset_hostMoved _) (hP.reset b hs)
  · exact hP.host hmoved hs

theorem KeptBetween.foldl_applyEvent {s : State} (hs : P s) (batch : List EnvEvent) :
    P (batch.foldl State.applyEvent s) := by
  induction batch generalizing s with
  | nil => exact hs
  | cons e batch ih => exact ih (hP.applyEvent hs e)

theorem KeptBetween.applyBatch {s : State} (hs : P s) : P s.applyBatch := by
  unfold State.applyBatch
  split
  · exact hs
  · exact hP.foldl_applyEvent (hP.inputs _ hs) _

theorem KeptBetween.betweenSteps {s : State} (hs : P s) : P s.betweenSteps :=
  hP.applyBatch (hP.elapse (hP.host (s.endStrobe_hostMoved.trans (State.loopReact_hostMoved _)) hs))

/-- What the fetched instruction leaves true is true after the step. -/
theorem KeptBetween.step {s t : State} (h : step s = .next t)
    (hexec : ∀ i u, s.fetch = .ok i → exec i s = .next u → P u) : P t := by
  obtain ⟨i, u, hi, hu, rfl⟩ := step_exec h
  exact hP.betweenSteps (hP.host (s.retire_hostMoved u) (hexec i u hi hu))

end

/-! ### The engine's registers -/

/-- Nothing on the bus is a register of the engine (40_port_access.md R100). -/
theorem consistent_of_onlyBus {s t : State} (h : OnlyBusMoved s t) (hs : Consistent s) : Consistent t := by
  rw [h]
  exact ⟨hs.busy_iff, hs.fe_fits, hs.busy_not_done, hs.front_end, hs.operands, hs.res_fits⟩

theorem resFits_zero : resFits 0 = true := by decide

theorem keptBetween_consistent : KeptBetween Consistent where
  host h hs := by rw [h]; exact ⟨hs.busy_iff, hs.fe_fits, hs.busy_not_done, hs.front_end, hs.operands, hs.res_fits⟩
  inputs _ hs := ⟨hs.busy_iff, hs.fe_fits, hs.busy_not_done, hs.front_end, hs.operands, hs.res_fits⟩
  elapse hs := consistent_of_onlyBus (State.elapse_onlyBus _ 0) hs
  reset _ _ := ⟨rfl, rfl, nofun, rfl, rfl, resFits_zero⟩

theorem resFits_rejected : resFits (packRes .invalidArgument .none 0) = true := by decide

/-- The first step of each transaction fits the operations of that transaction. -/
theorem Begins.consistent {s u : State} (h : Begins s u) (hs : Consistent s) (hbusy : s.busy = false) :
    Consistent u := by
  cases h with
  | rejects =>
    exact ⟨hs.busy_iff, hs.fe_fits, fun h => (nomatch hbusy.symm.trans h), hs.front_end, hs.operands, resFits_rejected⟩
  | reads hfe hfront hfits | writes hfe hfront hfits => exact ⟨rfl, hfe, fun _ => rfl, hfront, hfits, hs.res_fits⟩

/-- An ended operation leaves nothing to agree with but its result. -/
theorem consistent_complete (v : State) {kind : ResKind} {stage : Stage} {data : Half}
    (h : resFits (packRes kind stage data) = true) : Consistent (v.complete kind stage data) :=
  ⟨rfl, rfl, nofun, rfl, rfl, h⟩

/-- All steps of a transaction fit the same operations. -/
theorem feFits_nextStep {st target : Step} (h : nextStep st = some target) (fe : Fe) :
    target ≠ .idle ∧ feFits target fe = feFits st fe := by
  cases st <;> cases h <;> exact ⟨nofun, rfl⟩

theorem Continues.consistent {st : Step} {v u : State} (h : Continues st v u) (hs : Consistent v) (hv : v.step = st)
    (hst : st ≠ .idle) : Consistent u := by
  have hbusy : v.busy = true := by rw [hs.busy_iff, hv]; exact bne_iff_ne.mpr hst
  have hfe := hs.fe_fits
  rw [hv] at hfe
  cases h with
  | stays => exact hs
  | ends h => exact consistent_complete v h
  | goes _ h =>
    obtain ⟨hne, hfits⟩ := feFits_nextStep h v.fe
    exact ⟨hbusy.trans (bne_iff_ne.mpr hne).symm, hfits.trans hfe, hs.busy_not_done, hs.front_end, hs.operands,
      hs.res_fits⟩
  | takes b h =>
    subst h
    exact ⟨hbusy, hfe, hs.busy_not_done, hs.front_end, hs.operands, hs.res_fits⟩
  | repeats _ hrpm =>
    have hfront := hs.front_end
    rw [hrpm] at hfront
    exact ⟨hbusy, rfl, hs.busy_not_done, hfront, beq_self_eq_true _, hs.res_fits⟩

theorem Performs.consistent {i : Instr} {s u : State} (h : Performs i s u) (hs : Consistent s) : Consistent u := by
  cases h with
  | rests => exact hs
  | accepts _ _ hbusy h => exact h.consistent hs hbusy
  | other _ _ _ r res =>
    have hport := consistent_of_onlyBus (s.portOp_onlyBus .other r) hs
    exact ⟨hport.busy_iff, hport.fe_fits, hport.busy_not_done, hport.front_end, hport.operands, hport.res_fits⟩
  | engine _ hidle h => exact h.consistent (consistent_of_onlyBus (s.portOp_onlyBus _ _) hs) (s.portOp_step _ _) hidle

/-! ### A step answers -/

/-- The next step's instruction decodes, if the calls of other masters do: every request word and every step's code
does. -/
theorem exists_fetch {s : State} (hcalls : CallsDecode s) : ∃ i, s.fetch = .ok i := by
  unfold State.fetch
  split
  · obtain ⟨i, hi⟩ := exists_decodeReq s.req.isLt
    exact ⟨i, (decode_req s.req.isLt).trans hi⟩
  · split
    · next c hcall =>
      refine hcalls c (List.mem_of_mem_head? ?_)
      unfold State.nextCall at hcall
      split at hcall
      · cases hcall
      · exact hcall
    · exact ⟨_, decode_stepCode s.cfg s.step⟩

theorem exec_req_isNext {i : Instr} (hi : i.channel = .req) (s : State) : ∃ u, exec i s = .next u := by
  cases i <;> cases hi <;> exact ⟨_, rfl⟩

end Sys2Proof.Machine

namespace Sys2Proof.Safety

open Sys2Proof.Machine

/-- Settles O40: every way an instruction goes on keeps the registers in agreement, and the environment touches them
only by a reset. -/
theorem stepKeepsTheEngineConsistent : Obligations.StepKeepsTheEngineConsistent := by
  unfold Obligations.StepKeepsTheEngineConsistent
  intro s t hs h
  exact keptBetween_consistent.step h fun _ _ hi hu => (Performs.of_fetch hi hu).consistent hs

/-- Settles O39: nothing has happened yet. -/
theorem resetStateMeetsTheInvariants : Obligations.ResetStateMeetsTheInvariants := by
  unfold Obligations.ResetStateMeetsTheInvariants
  exact ⟨⟨rfl, rfl, nofun, rfl, rfl, rfl⟩, nofun, nofun, ⟨rfl, rfl⟩, rfl, State.reset_regs_wf⟩

/-- Settles O44: `FE` names an operation of the step's transaction, so `R7` and `W7` have a completion, and every other
meaning is total. -/
theorem consistentMachineNeverStops : Obligations.ConsistentMachineNeverStops := by
  unfold Obligations.ConsistentMachineNeverStops
  intro s hs hcalls
  obtain ⟨i, hi⟩ := exists_fetch hcalls
  obtain ⟨u, hu⟩ : ∃ u, exec i s = .next u := by
    obtain ⟨hch, -⟩ | ⟨hother, -⟩ | rfl := fetch_cases hi
    · exact exec_req_isNext hch s
    · obtain ⟨_, _, hexec⟩ := exec_otherMaster hother s
      exact ⟨_, hexec⟩
    · exact exec_stepInstr_isNext hs.fe_fits
  exact ⟨_, step_of_exec hi hu⟩

end Sys2Proof.Safety
end

section
/-! PROOFS. What a step does on the bus: at most one port operation, of the engine while its request waits, with no
command byte but the two codes; and what that does to the reference EC's registers (20_memory.md R51, R52, R62, R63).
-/

namespace Sys2Proof.Machine

open Sys2Proof.Safety

/-! ### The agents on the bus and the trace move in a port operation only -/

/-- The agents on the bus and the trace are the same. -/
structure SameBus (s t : State) : Prop where
  env : t.env = s.env
  trace : t.trace = s.trace

theorem Continues.sameBus {st : Step} {v u : State} (h : Continues st v u) : SameBus v u := by
  cases h <;> exact ⟨rfl, rfl⟩

theorem Begins.sameBus {s u : State} (h : Begins s u) : SameBus s u := by
  cases h <;> exact ⟨rfl, rfl⟩

/-- An instruction makes at most one port operation. -/
theorem Executed.sameBus {i : Instr} {s u : State} (h : Executed i s u) :
    SameBus s u ∨ ∃ m r, SameBus (s.portOp m r).2 u := by
  cases h with
  | rests => exact .inl ⟨rfl, rfl⟩
  | accepts _ _ _ h => exact .inl h.sameBus
  | other _ r res => exact .inr ⟨.other, r, rfl, rfl⟩
  | engine _ _ h => exact .inr ⟨.engine, _, h.sameBus⟩

/-- The fetched instruction makes none at an idle engine without calls, and the engine's own while that is on the bus.
-/
theorem Performs.sameBus {i : Instr} {s u : State} (h : Performs i s u) :
    SameBus s u ∨ (∃ r, (s.calls ≠ [] ∧ s.engineWaits = false) ∧ SameBus (s.portOp .other r).2 u) ∨
      s.step ≠ .idle ∧ SameBus (s.portOp .engine (engineRequest s.step s)).2 u := by
  cases h with
  | rests => exact .inl ⟨rfl, rfl⟩
  | accepts _ _ _ h => exact .inl h.sameBus
  | other _ hcalls hwaits r res => exact .inr (.inl ⟨r, ⟨hcalls, hwaits⟩, rfl, rfl⟩)
  | engine _ hidle h => exact .inr (.inr ⟨hidle, h.sameBus⟩)

/-! ### The trace -/

/-- Nothing between two steps makes a port operation, a reset included (70_reset_and_hazards.md R220). -/
theorem keptBetween_trace (Q : List PortEvent → Prop) : KeptBetween fun s => Q s.trace where
  host h hs := by rw [h]; exact hs
  inputs _ hs := hs
  elapse hs := by rw [State.elapse_trace]; exact hs
  reset _ hs := hs

/-- A port operation adds at most one entry to the trace, of its master. -/
theorem State.portOp_trace (s : State) (m : Master) (r : PortRequest) :
    (s.portOp m r).2.trace = s.trace ∨
    ∃ byte, (byte = none ∨ byte = some (eventByte r (s.reachEc r).1)) ∧
      (s.portOp m r).2.trace = { master := m, dir := r.dir, port := r.port, byte := byte } :: s.trace := by
  rcases h : s.portOp m r with ⟨a, t⟩
  obtain ⟨-, htrace⟩ | ⟨-, htrace⟩ | ⟨b, rfl, htrace⟩ := State.trace_of_portOp h
  · exact .inl htrace
  · exact .inr ⟨none, .inl rfl, htrace⟩
  · exact .inr ⟨some b, .inr (congrArg some (State.byte_of_portOp_ok h)), htrace⟩

/-- An entry of the trace without a byte carries no command (60_exceptions.md R193). -/
theorem commandKnown_none (k : Constants) (m : Master) (dir : Dir) (p : Port) :
    commandKnown k { master := m, dir := dir, port := p, byte := none } = true := by
  cases m <;> cases dir <;> cases p <;> rfl

/-- The engine's requests to the command port are status reads and the two command codes (30_encoding.md R72). -/
theorem commandKnown_engineRequest (st : Step) (s : State) (answer : Nat) :
    commandKnown s.cfg.k
      { master := .engine, dir := (engineRequest st s).dir, port := (engineRequest st s).port,
        byte := some (eventByte (engineRequest st s) answer) } = true := by
  cases st
  case r2 =>
    have hcmd : eventByte (engineRequest .r2 s) answer = s.cfg.k.cmdRead := lowByte_writeRequest _ _ _
    rw [hcmd]
    simp [engineRequest, writeRequest, commandKnown]
  case w2 =>
    have hcmd : eventByte (engineRequest .w2 s) answer = s.cfg.k.cmdWrite := lowByte_writeRequest _ _ _
    rw [hcmd]
    simp [engineRequest, writeRequest, commandKnown]
  all_goals rfl

theorem Performs.commandKnown {i : Instr} {s u : State} (h : Performs i s u)
    (hs : s.trace.all (commandKnown s.cfg.k) = true) : u.trace.all (commandKnown s.cfg.k) = true := by
  obtain hbus | ⟨r, -, hbus⟩ | ⟨-, hbus⟩ := h.sameBus <;> rw [hbus.trace]
  · exact hs
  · obtain htrace | ⟨byte, -, htrace⟩ := s.portOp_trace .other r <;> rw [htrace]
    · exact hs
    · rw [List.all_cons, hs]; rfl
  · obtain htrace | ⟨byte, hbyte, htrace⟩ := s.portOp_trace .engine (engineRequest s.step s) <;> rw [htrace]
    · exact hs
    · rw [List.all_cons, hs, Bool.and_true]
      obtain rfl | rfl := hbyte
      · exact commandKnown_none _ _ _ _
      · exact commandKnown_engineRequest _ s _

/-! ### The reference EC -/

/-- The EC takes a value byte in its next status read, if it is not stuck (20_memory.md R63). -/
structure RefEc.Stores (e : RefEc) (b : Byte) : Prop where
  ibf : e.ibf = true
  delay : e.delay = some 0
  pend : e.pend = some (.data b)
  phase : e.phase = .wrData

theorem RefEc.take_regs (k : Constants) (e : RefEc) (p : Option Pending) :
    (e.take k p).regs = e.regs ∨
    ∃ b, p = some (.data b) ∧ e.phase = .wrData ∧ (e.take k p).regs = Memory.write e.regs e.addr.toNat b := by
  unfold RefEc.take
  split
  · exact .inl rfl
  · left; split <;> [rfl; (split <;> rfl)]
  · next b =>
    split
    · exact .inl rfl
    · exact .inl rfl
    · next hphase => exact .inr ⟨b, rfl, hphase, rfl⟩
    · exact .inl rfl

theorem RefEc.progress_regs (k : Constants) (e : RefEc) :
    (e.progress k).regs = e.regs ∨ ∃ b, e.Stores b ∧ (e.progress k).regs = Memory.write e.regs e.addr.toNat b := by
  unfold RefEc.progress
  split
  · next hibf =>
    split
    · next hdelay =>
      obtain hregs | ⟨b, hpend, hphase, hregs⟩ := e.take_regs k e.pend
      · exact .inl hregs
      · exact .inr ⟨b, ⟨hibf, hdelay, hpend, hphase⟩, hregs⟩
    · exact .inl rfl
    · exact .inl rfl
  · exact .inl rfl

theorem RefEc.ioRead_regs (cfg : Params) (e : RefEc) (p : Port) :
    (e.ioRead cfg p).2.regs = e.regs ∨
    ∃ b, e.Stores b ∧ (e.ioRead cfg p).2.regs = Memory.write e.regs e.addr.toNat b := by
  cases p with
  | data => exact .inl rfl
  | sc =>
    cases hstuck : e.stuck0 with
    | true => left; simp [RefEc.ioRead, hstuck]
    | false => simpa [RefEc.ioRead, hstuck] using e.progress_regs cfg.k

/-- A status read of an EC that is about to take a value byte stores it, and the input buffer is free. -/
theorem RefEc.Stores.ioRead {e : RefEc} {b : Byte} (h : e.Stores b) (hstuck : e.stuck0 = false) (cfg : Params) :
    (e.ioRead cfg .sc).2.regs = Memory.write e.regs e.addr.toNat b ∧ (e.ioRead cfg .sc).2.ibf = false := by
  simp [RefEc.ioRead, hstuck, RefEc.progress, h.ibf, h.delay, RefEc.consume, RefEc.take, h.pend, h.phase]

/-- The oracle leaves the reference EC as it is; the reference EC reads or takes a byte (20_memory.md R62). -/
theorem State.reachEc_ec (s : State) (r : PortRequest) :
    (s.reachEc r).2.ec = s.env.ec ∨ (s.reachEc r).2.ec = (s.env.ec.ioRead s.cfg r.port).2 ∨
      (s.reachEc r).2.ec = s.env.ec.ioWrite r.port (lowByte r.wdata) := by
  unfold State.reachEc State.ecRead State.ecWrite
  split
  · split
    · exact .inr (.inl rfl)
    · left; split <;> rfl
  · split
    · exact .inr (.inr rfl)
    · exact .inl rfl

theorem State.portOp_ec (s : State) (m : Master) (r : PortRequest) :
    (s.portOp m r).2.env.ec = s.env.ec ∨ (s.portOp m r).2.env.ec = (s.reachEc r).2.ec := by
  rcases s.portOp_cases m r with ⟨h, -⟩ | ⟨h, -⟩ | ⟨t, h, -, -, -, -, -, hec⟩ | ⟨t, reached, h, -, -, -, -, -, hec⟩ |
    ⟨t, h, -, -, -, -, -, hec⟩ <;> rw [h]
  · exact .inl rfl
  · exact .inl rfl
  · exact .inl hec
  · cases reached
    · exact .inl hec
    · exact .inr hec
  · exact .inr hec

/-- Whatever reaches the EC, its registers stay or take the value byte due. -/
theorem State.reachEc_regs (s : State) (r : PortRequest) :
    (s.reachEc r).2.ec.regs = s.env.ec.regs ∨
    ∃ b, s.env.ec.Stores b ∧ (s.reachEc r).2.ec.regs = Memory.write s.env.ec.regs s.env.ec.addr.toNat b := by
  obtain h | h | h := s.reachEc_ec r <;> rw [h]
  · exact .inl rfl
  · exact RefEc.ioRead_regs _ _ _
  · exact .inl (RefEc.ioWrite_regs _ _ _)

theorem Executed.regs {i : Instr} {s u : State} (h : Executed i s u) :
    u.env.ec.regs = s.env.ec.regs ∨
    ∃ b, s.env.ec.Stores b ∧ u.env.ec.regs = Memory.write s.env.ec.regs s.env.ec.addr.toNat b := by
  obtain hbus | ⟨m, r, hbus⟩ := h.sameBus <;> rw [hbus.env]
  · exact .inl rfl
  · obtain hec | hec := s.portOp_ec m r <;> rw [hec]
    · exact .inl rfl
    · exact s.reachEc_regs r

/-- The environment's own acts leave the EC's registers; a reset may let an operation in flight reach the EC
(70_reset_and_hazards.md R222). -/
theorem keptBetween_regs_wf : KeptBetween fun s => Memory.wf s.env.ec.regs = true where
  host h hs := by rw [h]; exact hs
  inputs _ hs := hs
  elapse hs := by rw [State.elapse_ec]; exact hs
  reset {s} reached hs := by
    have hec : (s.engineReset reached).env.ec = (s.abandonPortOp reached).ec := rfl
    rw [hec]
    by_cases hoff : EngineOffBus s
    · rw [State.abandonPortOp_of_offBus hoff]; exact hs
    · obtain ⟨r, hout⟩ : ∃ r, s.outstanding = some (.engine, r) := by simpa [EngineOffBus] using hoff
      rw [State.abandonPortOp_of_engine hout]
      split
      · obtain hregs | ⟨b, -, hregs⟩ := s.reachEc_regs r <;> rw [hregs]
        · exact hs
        · exact Memory.write_wf hs _ _
      · exact hs

end Sys2Proof.Machine

namespace Sys2Proof.Safety

open Sys2Proof.Machine

/-- Settles O42: only `R2` and `W2` write to the command port. -/
theorem stepKeepsCommandBytesKnown : Obligations.StepKeepsCommandBytesKnown := by
  unfold Obligations.StepKeepsCommandBytesKnown
  intro s t hs h
  exact (keptBetween_trace fun trace => trace.all (commandKnown s.cfg.k) = true).step h fun i u hi hu =>
    (Performs.of_fetch hi hu).commandKnown hs

/-- Settles O43: every store keeps the canonical form. -/
theorem stepKeepsEcRegistersCanonical : Obligations.StepKeepsEcRegistersCanonical := by
  unfold Obligations.StepKeepsEcRegistersCanonical
  intro s t hs h
  refine keptBetween_regs_wf.step h fun i u _ hu => ?_
  obtain hregs | ⟨b, -, hregs⟩ := (exec_cases hu).regs <;> rw [hregs]
  · exact hs
  · exact Memory.write_wf hs _ _

/-- Settles O50: every passage of time moves `NOW` forwards. -/
theorem nowNeverDecreases : Obligations.NowNeverDecreases := by
  unfold Obligations.NowNeverDecreases
  exact fun s t h => (lasting_now s.now).step h le_rfl

/-- Settles O51: an instruction makes at most one port operation, and the environment none. -/
theorem atMostOnePortOperationPerStep : Obligations.AtMostOnePortOperationPerStep := by
  unfold Obligations.AtMostOnePortOperationPerStep
  refine ⟨fun s t h => ?_, fun s t hcalls hidle h => ?_⟩
  · refine (keptBetween_trace fun trace => trace = s.trace ∨ ∃ e, trace = e :: s.trace).step h fun i u _ hu => ?_
    obtain hbus | ⟨m, r, hbus⟩ := (exec_cases hu).sameBus
    · exact .inl hbus.trace
    · rw [hbus.trace]
      exact (s.portOp_trace m r).imp_right fun ⟨_, _, htrace⟩ => ⟨_, htrace⟩
  · refine (keptBetween_trace fun trace => trace = s.trace).step h fun i u hi hu => ?_
    obtain hbus | ⟨_, ⟨hcall, -⟩, -⟩ | ⟨hrun, -⟩ := (Performs.of_fetch hi hu).sameBus
    · exact hbus.trace
    · exact absurd hcalls hcall
    · exact absurd hidle hrun

/-- Settles O52: the one store is that of the value byte the EC is about to take. -/
theorem ecRegisterStoreAndFrame : Obligations.EcRegisterStoreAndFrame := by
  unfold Obligations.EcRegisterStoreAndFrame
  refine ⟨fun i s t o h hno => ?_, fun s m b hpass hkind hstuck hibf hdelay hpend hphase hwf => ?_⟩
  · obtain hregs | ⟨b, hstores, hregs⟩ := (exec_cases h).regs <;> rw [hregs]
    have hother : o ≠ s.env.ec.addr.toNat := fun ho =>
      hno b ⟨hstores.ibf, hstores.delay, hstores.pend, hstores.phase, ho.symm⟩
    exact Memory.read_write_other _ hother b
  · obtain ⟨htaken, hmech⟩ := hpass
    obtain ⟨hheld, hrefuses⟩ := (s.bus_taken_iff m _).mpr htaken
    have hstores : s.env.ec.Stores b := ⟨hibf, hdelay, hpend, hphase⟩
    obtain ⟨hregs, hfree⟩ := hstores.ioRead hstuck s.cfg
    have hec : (s.ioRead m .sc).2.env.ec = (s.env.ec.ioRead s.cfg .sc).2 := by
      rw [State.ioRead, State.portOp_pass hheld hrefuses hmech, State.reachEc_readRequest]
      simp [State.answered, State.usePlan, State.ecRead, hkind]
    rw [hec, hregs, hfree]
    exact ⟨Memory.read_write_same hwf _ _, rfl⟩

/-- Settles O53: both ports leave the byte pending in the same way. -/
theorem referenceEcTakesAHostWrite : Obligations.ReferenceEcTakesAHostWrite := by
  unfold Obligations.ReferenceEcTakesAHostWrite
  intro e p b
  have hviolation : (e.violation || e.ibf) = true ↔ e.violation = true ∨ e.ibf = true := Bool.or_eq_true_iff
  cases p <;> exact ⟨rfl, rfl, rfl, rfl, hviolation, rfl, rfl, rfl⟩

/-- Settles O57: while the engine's request is on the bus no call of another master runs. -/
theorem onePortOperationOnTheBus : Obligations.OnePortOperationOnTheBus := by
  unfold Obligations.OnePortOperationOnTheBus
  refine ⟨fun s m r q hout hne => State.portOp_waits ((s.busHeld_iff m r).mpr ⟨q, hout, hne⟩),
    fun s t q _ hout h => ?_⟩
  have hengine : s.engineWaits = true := by simp [State.engineWaits, hout]
  refine (keptBetween_trace fun trace => trace = s.trace ∨ ∃ e, trace = e :: s.trace ∧ e.master = .engine).step h
    fun i u hi hu => ?_
  obtain hbus | ⟨_, ⟨-, hwaits⟩, -⟩ | ⟨-, hbus⟩ := (Performs.of_fetch hi hu).sameBus
  · exact .inl hbus.trace
  · exact nomatch hengine.symm.trans hwaits
  · rw [hbus.trace]
    exact (s.portOp_trace .engine _).imp_right fun ⟨_, _, htrace⟩ => ⟨_, htrace, rfl⟩

end Sys2Proof.Safety
end

section
/-! PROOFS. Where the next instruction comes from, the accept step's new states, and what lies between two steps
without a control loop (10_state.md R13, R17, R22, 44_derived_operations.md R140). -/

namespace Sys2Proof.Machine

open Sys2Proof.Safety

/-! ### Fetch -/

theorem State.accepts_iff (s : State) :
    s.accepts = true ↔ s.step = .idle ∧ s.busy = false ∧ s.start = true := by
  simp [State.accepts, and_assoc]

theorem State.engineWaits_iff (s : State) : s.engineWaits = true ↔ ∃ r, s.outstanding = some (.engine, r) := by
  rcases h : s.outstanding with _ | ⟨_ | _, r⟩ <;> simp [State.engineWaits, h]

theorem State.otherWaits_iff (s : State) : s.otherWaits = true ↔ ∃ r, s.outstanding = some (.other, r) := by
  rcases h : s.outstanding with _ | ⟨_ | _, r⟩ <;> simp [State.otherWaits, h]

theorem State.fetch_of_accepts {s : State} (h : s.accepts = true) : s.fetch = decode s.cfg .req s.req.toNat :=
  if_pos h

theorem State.fetch_of_call {s : State} {c : Call} (h : s.accepts = false) (hc : s.nextCall = some c) :
    s.fetch = decode s.cfg c.channel.channel c.word := by
  simp [State.fetch, h, hc]

theorem State.fetch_of_no_call {s : State} (h : s.accepts = false) (hc : s.nextCall = none) :
    s.fetch = decode s.cfg .step (stepCode s.step).toNat := by
  simp [State.fetch, h, hc]

theorem State.nextCall_of_accepts {s : State} (h : s.accepts = true) : s.nextCall = none := by
  simp [State.nextCall, h]

theorem State.nextCall_of_engineWaits {s : State} (h : s.engineWaits = true) : s.nextCall = none := by
  simp [State.nextCall, h]

theorem State.nextCall_of_no_calls {s : State} (h : s.calls = []) : s.nextCall = none := by
  simp [State.nextCall, h]

theorem State.retire_of_no_call {s : State} (h : s.nextCall = none) (t : State) : s.retire t = t := by
  simp [State.retire, h]

theorem State.retire_of_call {s : State} {c : Call} (h : s.nextCall = some c) (t : State) :
    s.retire t = t.finishCall := by
  simp [State.retire, h]

/-! ### Between two steps -/

theorem State.betweenSteps_noLoop {s : State} (hloop : s.loop = none) (hclock : s.env.clock = .deterministic) :
    s.betweenSteps = ({ s with start := false } : State).applyBatch := by
  have hreact : ({ s with start := false } : State).loopReact = { s with start := false } := by
    simp [State.loopReact, hloop]
  have helapse : ({ s with start := false } : State).elapse 0 = { s with start := false } :=
    State.elapse_deterministic _ 0 hclock
  rw [State.betweenSteps, State.endStrobe_noLoop hloop, hreact, helapse]

theorem State.applyBatch_nil {s : State} (h : s.inputs = []) : s.applyBatch = s := by
  simp [State.applyBatch, h]

theorem State.applyBatch_cons {s : State} {batch : List EnvEvent} {rest : List (List EnvEvent)}
    (h : s.inputs = batch :: rest) : s.applyBatch = batch.foldl State.applyEvent { s with inputs := rest } := by
  simp [State.applyBatch, h]

/-- Where no event comes the strobe is over, loop or not, unless the loop submits. -/
theorem State.betweenSteps_start_noLoop {s : State} (hloop : s.loop = none) (hinputs : s.inputs = []) :
    s.betweenSteps.start = false := by
  have hreact : s.endStrobe.loopReact = s.endStrobe := by
    rw [State.endStrobe_noLoop hloop]
    simp [State.loopReact, hloop]
  rw [State.betweenSteps, hreact, State.applyBatch_nil (by simpa [State.endStrobe] using hinputs)]
  simp

/-! ### The accept step at the source's constants -/

theorem tempOffset_source (i : Byte) : tempOffset Constants.source i = BitVec.ofNat 8 (0x78 + i.toNat) := by
  rw [BitVec.ofNat_add, BitVec.ofNat_toNat, BitVec.setWidth_eq]
  rfl

theorem acceptRpm_frontEnd {s : State} (h : s.cfg.hasFrontEnd = true) :
    acceptRpm s = s.beginRead .rpmLsb s.cfg.k.regRpmLsb :=
  if_pos h

theorem exec_writeRegister (o v : Byte) (s : State) :
    exec (.writeRegister o v) s = .next (s.acceptWith (acceptWrite o v)) := rfl

/-- A busy engine has no accept step (10_state.md R17). -/
theorem exec_req_busy {s : State} {i : Instr} (hbusy : s.busy = true) (hi : i.channel = .req) :
    exec i s = .next s := by
  obtain ⟨u, hu⟩ := exec_req_isNext hi s
  obtain rfl | ⟨⟨-, hidle⟩, -⟩ := begins_of_exec_req hi hu
  · exact hu
  · exact nomatch hbusy.symm.trans hidle

end Sys2Proof.Machine

namespace Sys2Proof.Safety

open Sys2Proof.Machine

/-- Settles O5: each source of the next instruction, and how its call ends. -/
theorem stepRunsTheFetchedInstruction : Obligations.StepRunsTheFetchedInstruction := by
  unfold Obligations.StepRunsTheFetchedInstruction
  refine ⟨fun s t i hi hx => step_of_exec hi hx, fun s i f hi hx => by simp only [step, hi, hx],
    fun s e he => by simp only [step, he], fun s hidle hbusy hstart => ?_, fun s c rest hcalls hno hoff => ?_,
    fun s hno hwhy => ?_⟩
  · have haccepts := s.accepts_iff.mpr ⟨hidle, hbusy, hstart⟩
    exact ⟨State.fetch_of_accepts haccepts, State.retire_of_no_call (State.nextCall_of_accepts haccepts)⟩
  · have haccepts : s.accepts = false := by rwa [← s.accepts_iff, Bool.not_eq_true] at hno
    have hwaits : s.engineWaits = false := by
      rw [← Bool.not_eq_true, s.engineWaits_iff]
      exact fun ⟨r, hr⟩ => hoff r hr
    have hcall : s.nextCall = some c := by simp [State.nextCall, haccepts, hwaits, hcalls]
    refine ⟨State.fetch_of_call haccepts hcall, fun t => ?_⟩
    rw [State.retire_of_call hcall]
    obtain ⟨h, hother⟩ | ⟨h, hother⟩ := t.finishCall_cases
    · obtain ⟨r, hr⟩ := t.otherWaits_iff.mp hother
      exact ⟨fun _ => h, fun hnone => absurd hr (hnone r)⟩
    · rw [← Bool.not_eq_true, t.otherWaits_iff] at hother
      exact ⟨fun hsome => absurd hsome hother, fun _ => h⟩
  · have haccepts : s.accepts = false := by rwa [← s.accepts_iff, Bool.not_eq_true] at hno
    have hcall : s.nextCall = none := by
      obtain hcalls | hwaits := hwhy
      · exact State.nextCall_of_no_calls hcalls
      · exact State.nextCall_of_engineWaits (s.engineWaits_iff.mpr hwaits)
    exact ⟨State.fetch_of_no_call haccepts hcall, State.retire_of_no_call hcall⟩

/-- Settles O6: without a loop and with time standing still only the strobe's end and the batch are left. -/
theorem environmentActsAnyNumberOfTimesBetweenSteps : Obligations.EnvironmentActsAnyNumberOfTimesBetweenSteps := by
  unfold Obligations.EnvironmentActsAnyNumberOfTimesBetweenSteps
  intro s hloop hclock
  rw [State.betweenSteps_noLoop hloop hclock]
  exact ⟨fun h => State.applyBatch_nil h, fun batch rest h => State.applyBatch_cons h⟩

/-- Settles O9: the accept step is taken, and `Begin` sets the registers. -/
theorem rawRequestsAreAccepted : Obligations.RawRequestsAreAccepted := by
  unfold Obligations.RawRequestsAreAccepted
  intro s o b v hidle hbusy
  rw [exec_readRegister, exec_writeRegister, State.acceptWith_idle hidle hbusy, State.acceptWith_idle hidle hbusy]
  exact ⟨rfl, rfl⟩

/-- Settles O10: the argument checks pass, and the offsets are the source's. -/
theorem derivedRequestsAreAccepted : Obligations.DerivedRequestsAreAccepted := by
  unfold Obligations.DerivedRequestsAreAccepted
  intro s a b i l hidle hbusy hfront hk
  have haccept := State.acceptWith_idle hidle hbusy
  rw [exec_fanRpmRead, exec_tempRead, exec_fanLevelWrite, haccept, haccept, haccept]
  refine ⟨?_, fun hi => ?_, fun hl => ?_⟩
  · rw [acceptRpm_frontEnd hfront, hk]
    rfl
  · have hlegal : legalSensor s.cfg.k i = true := by rw [hk, legalSensor_source, decide_eq_true hi]
    rw [acceptTemp_legal hfront hlegal, hk, tempOffset_source]
    rfl
  · have hlegal : legalLevel s.cfg.k l = true := by rw [hk]; exact (legalLevel_source_iff l).mpr hl
    rw [acceptLevel_legal hfront hlegal, hk]
    rfl

/-- Settles O13: a busy engine has no accept step, so neither the meaning of a request nor the fetch looks at it. -/
theorem requestsWhileBusyAreIgnored : Obligations.RequestsWhileBusyAreIgnored := by
  unfold Obligations.RequestsWhileBusyAreIgnored
  refine ⟨fun s i => exec_req_busy, fun s w hbusy => ?_, fun s => State.betweenSteps_start_noLoop⟩
  simp [State.fetch, State.nextCall, State.accepts, State.engineWaits, hbusy]

end Sys2Proof.Safety
end

section
/-! PROOFS. An answered port operation, the primitives of another port master, and the poll iteration (40_port_access.md
R101, R102, 41_polling.md R110). -/

namespace Sys2Proof.Machine

open Sys2Proof.Safety

/-! ### A port operation that passes -/

theorem State.portOp_of_pass {s : State} {m : Master} {r : PortRequest} (h : PortPasses m r s) :
    s.portOp m r =
      (.ok (eventByte r (s.reachEc r).1),
        ({ s with env := (s.reachEc r).2 } : State).usePlan.answered m r (some (eventByte r (s.reachEc r).1))) := by
  obtain ⟨htaken, hmech⟩ := h
  obtain ⟨hheld, hrefuses⟩ := (s.bus_taken_iff m r).mpr htaken
  exact State.portOp_pass hheld hrefuses hmech

/-- What an answer leaves: the trace one entry longer, the bus free, the EC as the request left it, deterministic time
moved on (60_exceptions.md R201). -/
structure AnswerLeaves (m : Master) (r : PortRequest) (b : Byte) (s t : State) : Prop where
  onlyBus : OnlyBusMoved s t
  free : t.outstanding = none
  trace : t.trace = { master := m, dir := r.dir, port := r.port, byte := some b } :: s.trace
  time : s.env.clock = .deterministic → t.now = s.now + s.cfg.portOpTicks
  ec : t.env.ec = (s.reachEc r).2.ec

theorem State.portOp_passes {s : State} {m : Master} {r : PortRequest} {b : Byte} (h : PortPasses m r s)
    (hb : eventByte r (s.reachEc r).1 = b) : ∃ t, s.portOp m r = (.ok b, t) ∧ AnswerLeaves m r b s t := by
  subst hb
  have hport := State.portOp_of_pass h
  refine ⟨_, hport, State.onlyBus_of_portOp hport, rfl, State.trace_of_portOp_ok hport, fun hclock => ?_, ?_⟩
  · have hreached : ({ s with env := (s.reachEc r).2 } : State).usePlan.env.clock = .deterministic :=
      (s.reachEc_clock r).trans hclock
    rw [State.answered, State.elapse_deterministic _ _ hreached]
    rfl
  · simp [State.answered, State.usePlan]

/-- A read passes the low byte of the EC's word (40_port_access.md R101). -/
theorem eventByte_readRequest (s : State) (p : Port) :
    eventByte (readRequest s.cfg p) (s.reachEc (readRequest s.cfg p)).1 = BitVec.ofNat 8 (s.ecRead p).1 := rfl

/-- A write passes the byte driven (40_port_access.md R102). -/
theorem eventByte_writeRequest (s : State) (p : Port) (b : Byte) (w : Nat) :
    eventByte (writeRequest s.cfg p b) w = b :=
  lowByte_writeRequest s.cfg p b

/-! ### The answers of a primitive are recorded, and nothing else is touched -/

theorem onlyBusMoved_recorded {s t : State} (h : OnlyBusMoved s t) (res : PrimResult) :
    OnlyBusMoved s { ({ t with primResult := res } : State) with primResult := s.primResult } := by
  unfold OnlyBusMoved at *
  rw [h]

theorem primitiveSays_of_portOp {i : Instr} {r : State → PortRequest} {byte : State → Byte}
    (hexec : ∀ s, exec i s = .next (recordPort (s.portOp .other (r s))))
    (hbyte : ∀ s, eventByte (r s) (s.reachEc (r s)).1 = byte s) : PrimitiveSays i r byte := by
  intro s hpass
  obtain ⟨t, hport, hleaves⟩ := State.portOp_passes hpass (hbyte s)
  refine ⟨{ t with primResult := .port (.ok (byte s)) }, ?_, rfl, hleaves.trace,
    onlyBusMoved_recorded hleaves.onlyBus _⟩
  rw [hexec, hport]
  rfl

/-- A write of a byte by a primitive, in the request that drives it. -/
theorem primitiveSays_of_ioWrite {i : Instr} {p : Port} {byte : State → Byte}
    (hexec : ∀ s, exec i s = .next (recordPort (s.ioWrite .other p (byte s).toNat))) :
    PrimitiveSays i (fun s => writeRequest s.cfg p (byte s)) byte :=
  primitiveSays_of_portOp (fun s => by rw [hexec, State.ioWrite_toNat]) fun s => eventByte_writeRequest s p _ _

/-! ### The poll iteration -/

theorem flagOf_eq_iff (b mask : Byte) (want : Bool) :
    flagOf b mask = want ↔ ((b &&& mask) ≠ 0 ↔ want = true) := by
  rw [← bne_iff_ne, Bool.coe_iff_coe]
  rfl

/-- A poll primitive of another master records how its one iteration ended (41_polling.md R112, R113). -/
theorem recordPoll_of_passes {s : State} {b : Byte} (h : PortPasses .other (readRequest s.cfg .sc) s)
    (hb : b = BitVec.ofNat 8 (s.ecRead .sc).1) (mask : Byte) (want : Bool) :
    ∃ t, recordPoll (s.pollIteration .other mask want) = t ∧ OnlyBusMoved s { t with primResult := s.primResult } ∧
      t.trace = { master := .other, dir := .read, port := .sc, byte := some b } :: s.trace ∧
      t.primResult =
        .poll (if flagOf b mask = want then .satisfied else if t.now ≥ t.deadline then .timedOut else .again) := by
  obtain ⟨t, hport, hleaves⟩ := State.portOp_passes h ((eventByte_readRequest s .sc).trans hb.symm)
  rw [State.pollIteration_ok (show s.ioRead .other .sc = (.ok b, t) from hport)]
  exact ⟨_, rfl, onlyBusMoved_recorded hleaves.onlyBus _, hleaves.trace, rfl⟩

/-! ### Two answers of the oracle (30_encoding.md R71) -/

/-- The state with another next answer of the oracle. -/
def State.withAnswers (s : State) (answers : List Nat) : State := { s with env := { s.env with answers := answers } }

/-- An answered read takes the next answer off the oracle, and the clock does not look at it; nor does a read that is
not answered. -/
theorem State.ioRead_withAnswers {s : State} {w : Nat} {rest : List Nat} (hec : s.env.ecKind = .oracle)
    (hans : s.env.answers = w :: rest) (m : Master) (p : Port) (v : Nat) :
    (∃ t t', s.ioRead m p = (.ok (lowByte w), t) ∧ (s.withAnswers (v :: rest)).ioRead m p = (.ok (lowByte v), t') ∧
      t'.now = t.now ∧ t'.deadline = t.deadline) ∨
    ((s.ioRead m p).1 = ((s.withAnswers (v :: rest)).ioRead m p).1 ∧ ∀ b, (s.ioRead m p).1 ≠ .ok b) := by
  set r := readRequest s.cfg p with hr
  set s' := s.withAnswers (v :: rest) with hs'
  have hheld : s'.busHeld m r = s.busHeld m r := rfl
  have hrefuses : s'.palRefuses = s.palRefuses := rfl
  have hmech : s'.mechanism r = s.mechanism r := rfl
  have hreach : s.reachEc r = (s.cfg.onBus w, { s.env with answers := rest }) := State.ecRead_oracle hec hans p
  have hreach' : s'.reachEc r = (s.cfg.onBus v, { s.env with answers := rest }) :=
    State.ecRead_oracle (s := s') hec rfl p
  have hbyte (x : Nat) : eventByte r (s.cfg.onBus x) = lowByte x := lowByte_onBus_word s.cfg x
  have hioRead : s.ioRead m p = s.portOp m r := rfl
  have hioRead' : s'.ioRead m p = s'.portOp m r := rfl
  rw [hioRead, hioRead']
  unfold State.portOp
  simp only [hheld, hrefuses, hmech, hreach, hreach', hbyte]
  split
  · exact .inr ⟨rfl, nofun⟩
  split
  · exact .inr ⟨rfl, nofun⟩
  split
  · exact .inr ⟨rfl, nofun⟩
  · exact .inr ⟨rfl, nofun⟩
  · exact .inr ⟨rfl, nofun⟩
  · exact .inl ⟨_, _, rfl, rfl, rfl, rfl⟩

/-- A poll iteration's outcome depends on the answer by the flag alone. -/
theorem State.pollIteration_withAnswers {s : State} {w v : Nat} {rest : List Nat} {mask : Byte}
    (hec : s.env.ecKind = .oracle) (hans : s.env.answers = w :: rest)
    (hflag : flagOf (lowByte w) mask = flagOf (lowByte v) mask) (m : Master) (want : Bool) :
    (s.pollIteration m mask want).1 = ((s.withAnswers (v :: rest)).pollIteration m mask want).1 := by
  obtain ⟨t, t', h, h', hnow, hdeadline⟩ | ⟨hsame, hnever⟩ := State.ioRead_withAnswers hec hans m .sc v
  · rw [State.pollIteration_ok h, State.pollIteration_ok h', hflag, hnow, hdeadline]
  · rcases h : s.ioRead m .sc with ⟨a, t⟩
    rcases h' : (s.withAnswers (v :: rest)).ioRead m .sc with ⟨a', t'⟩
    rw [h, h'] at hsame
    rw [h] at hnever
    dsimp only at hsame hnever
    subst hsame
    cases a with
    | ok b => exact absurd rfl (hnever b)
    | error => rw [State.pollIteration_error h, State.pollIteration_error h']
    | pending => rw [State.pollIteration_pending h, State.pollIteration_pending h']

/-- A mask within bits 1 and 0 sees a word modulo 4. -/
theorem flagOf_lowByte_of_mod_four {w v : Nat} {mask : Byte} (hmask : 3 &&& mask = mask) (h : w % 4 = v % 4) :
    flagOf (lowByte w) mask = flagOf (lowByte v) mask := by
  have hlow (x : Nat) : lowByte x &&& 3 = BitVec.ofNat 8 (x % 4) := by
    have hthree : (3 : Byte).toNat = 3 := rfl
    have hand : x % 256 &&& 3 = x % 256 % 4 := Nat.and_two_pow_sub_one_eq_mod _ 2
    apply BitVec.eq_of_toNat_eq
    rw [BitVec.toNat_and, lowByte_toNat, hthree, hand, BitVec.toNat_ofNat]
    omega
  unfold flagOf
  rw [← hmask, ← BitVec.and_assoc, ← BitVec.and_assoc, hlow, hlow, h]

end Sys2Proof.Machine

namespace Sys2Proof.Safety

open Sys2Proof.Machine

/-- Settles O16: the request passes as an answered operation of its direction. -/
theorem answeredPortOperation : Obligations.AnsweredPortOperation := by
  unfold Obligations.AnsweredPortOperation
  intro s m p v
  refine ⟨fun h => ?_, fun h => ?_⟩
  · obtain ⟨t, hport, hleaves⟩ := State.portOp_passes h (eventByte_readRequest s p)
    exact ⟨t, hport, hleaves.onlyBus, hleaves.free, hleaves.trace, hleaves.time, hleaves.ec⟩
  · obtain ⟨t, hport, hleaves⟩ := State.portOp_passes h (eventByte_writeRequest s p _ _)
    have hec := hleaves.ec
    rw [State.reachEc_writeRequest] at hec
    exact ⟨t, hport, hleaves.onlyBus, hleaves.free, hleaves.trace, hleaves.time, hec⟩

/-- Settles O20: each row is one port operation of another master, its answer recorded. -/
theorem portPrimitivesComplete : Obligations.PortPrimitivesComplete := by
  unfold Obligations.PortPrimitivesComplete
  exact ⟨fun _ => primitiveSays_of_portOp (fun _ => rfl) fun s => eventByte_readRequest s .sc,
    fun _ => primitiveSays_of_portOp (fun _ => rfl) fun s => eventByte_readRequest s .data,
    fun _ => primitiveSays_of_ioWrite fun _ => rfl, fun _ => primitiveSays_of_ioWrite fun _ => rfl,
    primitiveSays_of_ioWrite fun _ => rfl, primitiveSays_of_ioWrite fun _ => rfl⟩

/-- Settles O21: the flag is tested first, the window only where it is not the wanted one. -/
theorem pollIterationTestsFlagThenWindow : Obligations.PollIterationTestsFlagThenWindow := by
  unfold Obligations.PollIterationTestsFlagThenWindow
  intro s t m mask want
  refine ⟨fun b h => ?_, fun h => State.pollIteration_error h mask want⟩
  rw [State.pollIteration_ok h, ← flagOf_eq_iff]
  exact ⟨fun hseen => by rw [if_pos hseen], fun hunseen hpast => by rw [if_neg hunseen, if_pos hpast],
    fun hunseen hopen => by rw [if_neg hunseen, if_neg hopen]⟩

/-- Settles O22: each row is one iteration of its poll, which reads the status once. -/
theorem pollPrimitivesComplete : Obligations.PollPrimitivesComplete := by
  unfold Obligations.PollPrimitivesComplete
  intro s x b hpass hb
  refine ⟨?_, ?_⟩
  · obtain ⟨t, ht, hmoved, htrace, hres⟩ := recordPoll_of_passes hpass hb s.cfg.ibfMask false
    refine ⟨t, congrArg Host.Outcome.next ht, hmoved, htrace, ?_⟩
    simpa [flagOf] using hres
  · obtain ⟨t, ht, hmoved, htrace, hres⟩ := recordPoll_of_passes hpass hb s.cfg.obfMask true
    refine ⟨t, congrArg Host.Outcome.next ht, hmoved, htrace, ?_⟩
    simpa [flagOf] using hres

/-- Settles O23: the default masks lie in bits 1 and 0. -/
theorem upperStatusBitsDecideNothing : Obligations.UpperStatusBitsDecideNothing := by
  unfold Obligations.UpperStatusBitsDecideNothing
  intro s m w v rest hec hans hibf hobf hmod
  refine ⟨State.pollIteration_withAnswers hec hans ?_ m false, State.pollIteration_withAnswers hec hans ?_ m true⟩
  · rw [hibf]; exact flagOf_lowByte_of_mod_four (by decide) hmod
  · rw [hobf]; exact flagOf_lowByte_of_mod_four (by decide) hmod

/-- Settles O45: neither step has a completion for such an `FE`. -/
theorem completionWithoutAnOperationStops : Obligations.CompletionWithoutAnOperationStops := by
  unfold Obligations.CompletionWithoutAnOperationStops
  intro s t b h
  refine ⟨fun hfe => ?_, fun hclear hfe => ?_⟩
  · have hnone : readCompletion s.fe = none := by rcases hfe with hfe | hfe | hfe <;> rw [hfe] <;> rfl
    simp only [exec, execStepR7, hnone, h]
  · have hnone : writeCompletion s.fe = none := by
      rcases hfe with hfe | hfe | hfe | hfe | hfe <;> rw [hfe] <;> rfl
    have hwait : s.waitIbfClear .engine = (.satisfied, t) := by
      rw [State.waitIbfClear, State.pollIteration_ok h, if_pos (show flagOf b s.cfg.ibfMask = false from hclear)]
    simp only [exec, execStepW7, hnone, hwait]

end Sys2Proof.Safety
end

section
/-! PROOFS. What lies between two steps without a reset, and an engine whose port operation is not answered
(41_polling.md R119, 70_reset_and_hazards.md R240). -/

namespace Sys2Proof.Machine

open Sys2Proof.Safety

/-! ### Between two steps without a reset -/

/-- Only the host's registers and inputs, the clock and the environment's own counters differ. -/
def Meanwhile (s t : State) : Prop :=
  t = { s with req := t.req, start := t.start, palReady := t.palReady, timeout := t.timeout, calls := t.calls,
               loop := t.loop, inputs := t.inputs, now := t.now,
               env := { s.env with draws := t.env.draws, clock := t.env.clock } }

theorem Meanwhile.trans {s t u : State} (h : Meanwhile s t) (k : Meanwhile t u) : Meanwhile s u := by
  unfold Meanwhile at *
  rw [k, h]

theorem HostMoved.meanwhile {s t : State} (h : HostMoved s t) : Meanwhile s t := by
  unfold Meanwhile
  rw [h]

theorem State.elapse_meanwhile (s : State) (n : Nat) : Meanwhile s (s.elapse n) := by
  unfold Meanwhile State.elapse
  split <;> rfl

theorem HostMoved.inputs {s t : State} (h : HostMoved s t) : t.inputs = s.inputs := by rw [h]

theorem State.applyEvent_hostMoved (s : State) {e : EnvEvent} (h : ∀ b, e ≠ .reset b) :
    HostMoved s (s.applyEvent e) := by
  obtain ⟨b, hb, -⟩ | hmoved := s.applyEvent_cases e
  · exact absurd hb (h b)
  · exact hmoved

theorem State.foldl_applyEvent_hostMoved (s : State) {batch : List EnvEvent} (h : ∀ e ∈ batch, ∀ b, e ≠ .reset b) :
    HostMoved s (batch.foldl State.applyEvent s) := by
  induction batch generalizing s with
  | nil => exact .refl s
  | cons e batch ih =>
    obtain ⟨he, hrest⟩ := List.forall_mem_cons.mp h
    exact (s.applyEvent_hostMoved he).trans (ih _ hrest)

theorem State.applyBatch_meanwhile (s : State) (h : ∀ batch rest, s.inputs = batch :: rest → NoReset [batch]) :
    Meanwhile s s.applyBatch ∧ s.applyBatch.inputs = s.inputs.tail := by
  cases hinputs : s.inputs with
  | nil => rw [State.applyBatch_nil hinputs]; exact ⟨rfl, hinputs⟩
  | cons batch rest =>
    rw [State.applyBatch_cons hinputs]
    have hmoved := State.foldl_applyEvent_hostMoved { s with inputs := rest }
      (h batch rest hinputs batch (List.mem_singleton_self batch))
    have htaken : Meanwhile s { s with inputs := rest } := rfl
    exact ⟨htaken.trans hmoved.meanwhile, hmoved.inputs⟩

theorem State.betweenSteps_meanwhile (s : State) (h : ∀ batch rest, s.inputs = batch :: rest → NoReset [batch]) :
    Meanwhile s s.betweenSteps ∧ s.betweenSteps.inputs = s.inputs.tail := by
  have hhost : HostMoved s s.endStrobe.loopReact := s.endStrobe_hostMoved.trans (State.loopReact_hostMoved _)
  have hinputs : (s.endStrobe.loopReact.elapse 0).inputs = s.inputs := (State.elapse_inputs _ 0).trans hhost.inputs
  obtain ⟨hbatch, hrest⟩ := State.applyBatch_meanwhile (s.endStrobe.loopReact.elapse 0) (by rwa [hinputs])
  refine ⟨(hhost.meanwhile.trans (State.elapse_meanwhile _ 0)).trans hbatch, ?_⟩
  rw [← hinputs]
  exact hrest

theorem noReset_head {inputs : List (List EnvEvent)} (h : NoReset inputs) :
    ∀ batch rest, inputs = batch :: rest → NoReset [batch] := by
  rintro batch rest rfl b hb
  obtain rfl := List.mem_singleton.mp hb
  exact h b List.mem_cons_self

theorem noReset_tail {inputs : List (List EnvEvent)} (h : NoReset inputs) : NoReset inputs.tail :=
  fun batch hbatch => h batch (List.mem_of_mem_tail hbatch)

/-! ### An unanswered port operation -/

/-- The engine is held where it was, whatever else happened: the request on the bus and the mechanism's plan may differ
too. -/
def Held (s t : State) : Prop :=
  t = { s with req := t.req, start := t.start, palReady := t.palReady, timeout := t.timeout, calls := t.calls,
               loop := t.loop, inputs := t.inputs, now := t.now, outstanding := t.outstanding,
               env := { s.env with draws := t.env.draws, clock := t.env.clock, plan := t.env.plan } }

theorem Held.trans {s t u : State} (h : Held s t) (k : Held t u) : Held s u := by
  unfold Held at *
  rw [k, h]

theorem Meanwhile.held {s t : State} (h : Meanwhile s t) : Held s t := by
  unfold Held
  rw [h]

theorem Held.engineRequest {s t : State} (h : Held s t) : engineRequest t.step t = engineRequest s.step s := by
  rw [h]
  rfl

/-- A step whose request is not answered leaves it on the bus, its engine held. -/
theorem step_hang {s : State} {plan : List MechOutcome} (hidle : s.step ≠ .idle) (hcall : s.nextCall = none)
    (hbus : BusTakes .engine (engineRequest s.step s) s) (hplan : s.env.plan = .hang :: plan)
    (hno : NoReset s.inputs) :
    ∃ t, step s = .next t ∧ Held s t ∧ t.outstanding = some (.engine, engineRequest t.step t) ∧ t.env.plan = plan ∧
      NoReset t.inputs := by
  set r := engineRequest s.step s with hr
  obtain ⟨hheld, hrefuses⟩ := (s.bus_taken_iff .engine r).mpr hbus
  have hmech : s.mechanism r = .hang := by simp [State.mechanism, hplan]
  set v : State := { s.usePlan.elapse 0 with outstanding := some (.engine, r) } with hv
  have hport : s.portOp .engine r = (.pending, v) := State.portOp_hang hheld hrefuses hmech
  have hwaits : Held s v := by
    have helapse := s.usePlan.elapse_meanwhile 0
    unfold Held
    rw [hv, helapse]
    rfl
  have hvplan : v.env.plan = plan := by
    have helapse := s.usePlan.elapse_meanwhile 0
    rw [hv]
    dsimp only
    rw [helapse]
    simp [State.usePlan, hplan]
  have hvinputs : v.inputs = s.inputs := s.usePlan.elapse_inputs 0
  have hexec : exec (stepInstr s.step) s = .next v := exec_stepInstr_pending hidle hport
  have haccepts : s.accepts = false := by simp [State.accepts, hidle]
  have hfetch : s.fetch = .ok (stepInstr s.step) :=
    (State.fetch_of_no_call haccepts hcall).trans (decode_stepCode s.cfg s.step)
  obtain ⟨hmeanwhile, hinputs⟩ := v.betweenSteps_meanwhile (by rw [hvinputs]; exact noReset_head hno)
  have hall : Held s v.betweenSteps := hwaits.trans hmeanwhile.held
  refine ⟨v.betweenSteps, ?_, hall, ?_, ?_, ?_⟩
  · rw [step_of_exec hfetch hexec, State.retire_of_no_call hcall]
  · rw [hall.engineRequest, ← hr, hmeanwhile]
  · rw [hmeanwhile]; exact hvplan
  · rw [hinputs, hvinputs]; exact noReset_tail hno

theorem run_hang {n : Nat} {s : State} {rest : List MechOutcome} (hidle : s.step ≠ .idle) (hcall : s.nextCall = none)
    (hbus : BusTakes .engine (engineRequest s.step s) s) (hplan : s.env.plan = List.replicate n .hang ++ rest)
    (hno : NoReset s.inputs) :
    ∃ u, Sys2Proof.core.run n s = .next u ∧ Held s u ∧ (0 < n ∨ s.engineWaits = true → u.engineWaits = true) := by
  induction n generalizing s with
  | zero => exact ⟨s, rfl, rfl, fun h => h.resolve_left (lt_irrefl 0)⟩
  | succ n ih =>
    obtain ⟨t, hstep, hheld, hout, htplan, hnoreset⟩ := step_hang hidle hcall hbus hplan hno
    have hwaits : t.engineWaits = true := t.engineWaits_iff.mpr ⟨_, hout⟩
    have hstays : t.step ≠ .idle := by rw [hheld]; exact hidle
    obtain ⟨u, hrun, hheld', hstill⟩ := ih hstays (State.nextCall_of_engineWaits hwaits) (.inl hout) htplan hnoreset
    exact ⟨u, (run_succ_of_step (M := Sys2Proof.core) hstep n).trans hrun, hheld.trans hheld',
      fun _ => hstill (.inr hwaits)⟩

end Sys2Proof.Machine

namespace Sys2Proof.Safety

open Sys2Proof.Machine

/-- Settles O59: of all that happens between two steps only a reset goes beyond `Meanwhile`. -/
theorem onlyResetTouchesTheOperationInProgress : Obligations.OnlyResetTouchesTheOperationInProgress := by
  unfold Obligations.OnlyResetTouchesTheOperationInProgress
  intro s h
  obtain ⟨hmeanwhile, -⟩ := s.betweenSteps_meanwhile h
  rw [hmeanwhile]
  exact ⟨rfl, rfl, rfl, rfl, rfl, rfl, rfl, rfl, rfl, rfl, rfl, rfl, rfl, rfl⟩

/-- Settles O19: the engine makes the same request in each step, and its own request on the bus keeps every other master
off it. -/
theorem unansweredPortOperationHoldsTheEngine : Obligations.UnansweredPortOperationHoldsTheEngine := by
  unfold Obligations.UnansweredPortOperationHoldsTheEngine
  refine ⟨fun s n rest hcalls hidle hfree hpal hplan hno => ?_, fun s b => ?_⟩
  · obtain ⟨u, hrun, hheld, hwaits⟩ :=
      run_hang hidle (State.nextCall_of_no_calls hcalls) (.inr ⟨hfree, hpal⟩) hplan hno
    have hout : 0 < n → ∃ r, u.outstanding = some (.engine, r) := fun hn =>
      u.engineWaits_iff.mp (hwaits (.inl hn))
    refine ⟨u, hrun, ?_, ?_, ?_, ?_, ?_, ?_, ?_, hout⟩ <;> rw [hheld]
  · have hdone : ResetDone (s.applyEvent (.reset b)) := (s.engineReset_resetDone b).loopReset
    exact ⟨hdone.step, hdone.busy, hdone.offBus⟩

end Sys2Proof.Safety
end

section
/-! PROOFS. On the oracle bench: one step of the engine with its answer decided, a poll that never sees its flag
(41_polling.md R114), and the two transactions in their shortest form (42_read_transaction.md R128,
43_write_transaction.md R138). -/

namespace Sys2Proof.Machine

open Sys2Proof.Safety

/-- `s` after the engine's port operations `ops` (newest first) in deterministic time, the oracle's answers `left`
still to come, the sequencer at `st` with window end `d`. -/
def State.walked (s : State) (ops : List PortEvent) (left : List Nat) (st : Step) (d : Nat) : State :=
  (s.withAnswers left).advanced ops s.env.ec st d

theorem State.walked_walked (s : State) (ops ops' : List PortEvent) (left left' : List Nat) (st st' : Step)
    (d d' : Nat) :
    (s.walked ops left st d).walked ops' left' st' d' = s.walked (ops' ++ ops) left' st' d' :=
  (s.withAnswers left').advanced_advanced ops ops' s.env.ec s.env.ec st st' d d'

/-- The engine has read `b` at a port. -/
def readOp (p : Port) (b : Byte) : PortEvent := { master := .engine, dir := .read, port := p, byte := some b }

/-- The engine has written `b` to a port. -/
def writeOp (p : Port) (b : Byte) : PortEvent := { master := .engine, dir := .write, port := p, byte := some b }

/-- A run of `k` steps, then one of `m`. -/
theorem run_add {M : Host.Core} {s t : M.State} {k : Nat} (h : M.run k s = .next t) (m : Nat) :
    M.run (k + m) s = M.run m t := by
  induction k generalizing s with
  | zero => cases h; rw [Nat.zero_add]
  | succ k ih =>
    rw [Nat.add_right_comm]
    cases hstep : M.step s with
    | next u => rw [run_succ_of_step hstep] at h ⊢; exact ih h
    | fault r => rw [Host.Core.run, hstep] at h; cases h
    | refused r => rw [Host.Core.run, hstep] at h; cases h

theorem run_one {s t : State} (h : step s = .next t) : Sys2Proof.core.run 1 s = .next t :=
  run_succ_of_step (M := Sys2Proof.core) h 0

/-- The request word of an instruction decodes to it (30_encoding.md R74). -/
theorem decode_reqOf {i : Instr} (hi : i.channel = .req) (p : Params) : decode p .req (reqOf p i).toNat = .ok i := by
  have hdecode := decode_encode_req hi p
  rw [reqOf_toNat p i (decode_lt hdecode), hdecode]

end Sys2Proof.Machine

namespace Sys2Proof.Safety

open Sys2Proof.Machine

/-! ### One port operation and one step -/

section
variable {s : State}

/-- On the oracle bench a read takes the next answer (20_memory.md R47, 60_exceptions.md R201). -/
theorem OracleBench.ioRead_eq (h : OracleBench s) {w : Nat} {rest : List Nat} (hans : s.env.answers = w :: rest)
    (p : Port) :
    s.ioRead .engine p = (.ok (lowByte w), s.walked [readOp p (lowByte w)] rest s.step s.deadline) := by
  obtain ⟨⟨-, -, -, hclock, hplan, hreliable, hready, hout⟩, hec⟩ := h
  have hreach : s.reachEc (readRequest s.cfg p) = (s.cfg.onBus w, { s.env with answers := rest }) :=
    State.ecRead_oracle hec hans p
  have hbyte : eventByte (readRequest s.cfg p) (s.cfg.onBus w) = lowByte w := lowByte_onBus_word s.cfg w
  rw [State.ioRead, State.portOp_pass (by simp [State.busHeld, hout]) (by simp [State.palRefuses, hready])
    (by simp [State.mechanism, hplan, hreliable]), hreach, hbyte]
  simp [State.answered, State.usePlan, State.elapse, hclock, hplan, hout, State.walked, State.withAnswers,
    State.advanced, readOp, readRequest]

/-- On the oracle bench a write is absorbed (20_memory.md R47). -/
theorem OracleBench.ioWrite_eq (h : OracleBench s) (p : Port) (b : Byte) :
    s.ioWrite .engine p b.toNat = (.ok b, s.walked [writeOp p b] s.env.answers s.step s.deadline) := by
  obtain ⟨hbench, hec⟩ := h
  have hreach : s.reachEc (writeRequest s.cfg p b) = (0, { s.env with ec := s.env.ec }) := by
    rw [State.reachEc_writeRequest, State.ecWrite, hec]
  rw [State.ioWrite_toNat, hbench.portOp_eq .engine _ hreach, eventByte_writeRequest]
  rfl

/-- Off `IDLE` a step on a bench runs the engine's step, and a strobe is lost (10_state.md R17). -/
theorem Bench.step_engine {t : State} (h : Bench s) (hidle : s.step ≠ .idle)
    (hx : exec (stepInstr s.step) s = .next t) (ht : Bench t) : step s = .next { t with start := false } := by
  have haccepts : s.accepts = false := by simp [State.accepts, hidle]
  have hcall : s.nextCall = none := State.nextCall_of_no_calls h.1
  have hfetch := (State.fetch_of_no_call haccepts hcall).trans (decode_stepCode s.cfg s.step)
  rw [step_of_exec hfetch hx, State.retire_of_no_call hcall, ht.betweenSteps_eq]

theorem isPollStep_ne_idle {st : Step} (hp : isPollStep st = true) : st ≠ .idle := by
  rintro rfl
  cases hp

/-! ### A poll that does not see its flag -/

theorem PollStepSays.unsatisfied {i : Instr} {st target : Step} (h : PollStepSays i st target) {t : State} {b : Byte}
    (hread : s.ioRead .engine .sc = (.ok b, t)) (hun : pollSatisfied s.cfg st b = false) :
    (t.now < t.deadline → exec i s = .next t) ∧
    (t.deadline ≤ t.now → exec i s = .next (t.failWith .ecTimeout (pollStage st))) := by
  obtain ⟨-, hok, -⟩ := h s t
  obtain ⟨-, hopen, hpast⟩ := hok b hread
  exact ⟨hopen hun, hpast hun⟩

/-- Unsatisfied, every poll step stays in its window and ends the operation after it, `W7` whatever `FE` names. -/
theorem exec_unsatisfied {st : Step} (hp : isPollStep st = true) {t : State} {b : Byte}
    (hread : s.ioRead .engine .sc = (.ok b, t)) (hun : pollSatisfied s.cfg st b = false) :
    (t.now < t.deadline → exec (stepInstr st) s = .next t) ∧
    (t.deadline ≤ t.now → exec (stepInstr st) s = .next (t.failWith .ecTimeout (pollStage st))) := by
  obtain ⟨hr1, hr3, hr5⟩ := readTransactionPolls
  obtain ⟨hw1, hw3, hw5⟩ := writeTransactionPolls
  cases st <;> cases hp
  case r1 => exact hr1.unsatisfied hread hun
  case r3 => exact hr3.unsatisfied hread hun
  case r5 => exact hr5.unsatisfied hread hun
  case w1 => exact hw1.unsatisfied hread hun
  case w3 => exact hw3.unsatisfied hread hun
  case w5 => exact hw5.unsatisfied hread hun
  case w7 =>
    obtain ⟨-, hok, -⟩ := stepW7ConfirmsTheWrite s t
    obtain ⟨-, hopen, hpast⟩ := hok b hread
    have hset : ibfFlag s.cfg b = true := by simpa [pollSatisfied] using hun
    exact ⟨hopen hset, hpast hset⟩

end

/-- The number of reads reaches the window's end, and one less does not (41_polling.md R114). -/
theorem pollReads_spec {timeout ticks : Nat} (h : 1 ≤ ticks) :
    timeout ≤ pollReads timeout ticks * ticks ∧
    (pollReads timeout ticks = 1 ∨ (pollReads timeout ticks - 1) * ticks < timeout) := by
  unfold pollReads
  set q := (timeout + ticks - 1) / ticks with hq
  have hle : q * ticks ≤ timeout + ticks - 1 := Nat.div_mul_le_self _ _
  have hlt : timeout + ticks - 1 < (q + 1) * ticks := Nat.lt_mul_of_div_lt (Nat.lt_succ_self q) h
  rw [Nat.succ_mul] at hlt
  rcases q with _ | _ | q
  · simp at hlt ⊢; omega
  · simp at hlt ⊢; omega
  · have hmax : max 1 (q + 1 + 1) = q + 1 + 1 := by omega
    rw [hmax]
    refine ⟨by omega, .inr ?_⟩
    rw [Nat.succ_mul] at hle
    rw [Nat.add_sub_cancel]
    omega

/-- After `k` reads that see nothing the poll is where it was, `left` the answers to come. -/
structure StaysPolling (s : State) (k : Nat) (left : List Nat) (u : State) : Prop where
  bench : OracleBench u
  step : u.step = s.step
  busy : u.busy = s.busy
  cfg : u.cfg = s.cfg
  deadline : u.deadline = s.deadline
  answers : u.env.answers = left
  reads : u.trace.length = s.trace.length + k
  now : u.now = s.now + k * s.cfg.portOpTicks

theorem StaysPolling.read {s u : State} {k w : Nat} {left : List Nat} (h : StaysPolling s k (w :: left) u) :
    StaysPolling s (k + 1) left { u.walked [readOp .sc (lowByte w)] left u.step u.deadline with start := false } where
  bench := h.bench
  step := h.step
  busy := h.busy
  cfg := h.cfg
  deadline := h.deadline
  answers := rfl
  reads := by rw [← Nat.add_assoc, ← h.reads]; rfl
  now := by
    rw [Nat.succ_mul, ← Nat.add_assoc, ← h.now, ← h.cfg]
    exact congrArg (u.now + ·) (Nat.one_mul _)

/-- What a poll that sees nothing does with its next read, by the window (41_polling.md R110). -/
theorem StaysPolling.step_unseen {s u : State} {k w : Nat} {left : List Nat} (h : StaysPolling s k (w :: left) u)
    (hp : isPollStep s.step = true) (hun : pollSatisfied s.cfg s.step (lowByte w) = false) :
    (s.now + (k + 1) * s.cfg.portOpTicks < s.deadline → ∃ v, Machine.step u = .next v ∧ StaysPolling s (k + 1) left v) ∧
    (s.deadline ≤ s.now + (k + 1) * s.cfg.portOpTicks → ∃ v, StaysPolling s (k + 1) left v ∧
      Machine.step u = .next (v.failWith .ecTimeout (pollStage s.step))) := by
  have hpoll : isPollStep u.step = true := by rw [h.step]; exact hp
  have hread := h.bench.ioRead_eq h.answers .sc
  obtain ⟨hstays, hends⟩ := exec_unsatisfied hpoll hread (by rw [h.cfg, h.step]; exact hun)
  have hnow := h.read.now
  have hdeadline := h.read.deadline
  refine ⟨fun hopen => ⟨_, h.bench.1.step_engine (isPollStep_ne_idle hpoll) (hstays ?_) h.bench.1, h.read⟩,
    fun hpast => ⟨_, h.read, ?_⟩⟩
  · rw [← hnow, ← hdeadline] at hopen
    exact hopen
  · rw [← hnow, ← hdeadline] at hpast
    rw [h.bench.1.step_engine (isPollStep_ne_idle hpoll) (hends hpast) h.bench.1, h.step]
    rfl

/-- A poll stays at its step while its reads see nothing and its window is open. -/
theorem OracleBench.run_polling {s : State} (h : OracleBench s) (hp : isPollStep s.step = true) (seen : List Nat)
    (left : List Nat) (hans : s.env.answers = seen ++ left)
    (hun : ∀ w ∈ seen, pollSatisfied s.cfg s.step (lowByte w) = false)
    (hopen : seen.length = 0 ∨ s.now + seen.length * s.cfg.portOpTicks < s.deadline) :
    ∃ u, Sys2Proof.core.run seen.length s = .next u ∧ StaysPolling s seen.length left u := by
  induction seen using List.reverseRecOn generalizing left with
  | nil => exact ⟨s, rfl, h, rfl, rfl, rfl, rfl, hans, rfl, by simp⟩
  | append_singleton seen w ih =>
    rw [List.length_append, List.length_singleton] at hopen ⊢
    have hwindow : s.now + (seen.length + 1) * s.cfg.portOpTicks < s.deadline := hopen.resolve_left (Nat.succ_ne_zero _)
    have hshorter : s.now + seen.length * s.cfg.portOpTicks < s.deadline :=
      lt_of_le_of_lt (Nat.add_le_add_left (Nat.mul_le_mul_right _ (Nat.le_succ _)) _) hwindow
    obtain ⟨u, hrun, hu⟩ := ih (w :: left) (by simpa using hans) (fun x hx => hun x (List.mem_append_left _ hx))
      (.inr hshorter)
    obtain ⟨hstays, -⟩ := hu.step_unseen hp (hun w (List.mem_append_right _ (List.mem_singleton_self w)))
    obtain ⟨v, hstep, hv⟩ := hstays hwindow
    exact ⟨v, (run_add hrun 1).trans (run_one hstep), hv⟩

/-- Settles O24: each read before the `N`-th leaves the window open, and the `N`-th does not. -/
theorem failingPollMakesExactlyNReads : Obligations.FailingPollMakesExactlyNReads := by
  unfold Obligations.FailingPollMakesExactlyNReads
  intro s seen rest h hp hticks hdeadline hans hlength hun
  obtain ⟨hpast, hopen⟩ := pollReads_spec (timeout := s.timeout.toNat) hticks
  rw [← hlength] at hpast hopen
  have hwindow {k : Nat} (hk : k < seen.length) : k = 0 ∨ s.now + k * s.cfg.portOpTicks < s.deadline := by
    obtain hone | hlt := hopen
    · left; omega
    · right
      have hle := Nat.mul_le_mul_right s.cfg.portOpTicks (Nat.le_sub_one_of_lt hk)
      omega
  constructor
  · cases seen using List.reverseRecOn with
    | nil => simp [pollReads] at hlength; omega
    | append_singleton seen w =>
      have hlast := List.length_append (as := seen) (bs := [w])
      rw [List.length_singleton] at hlast
      rw [hlast] at hwindow hpast ⊢
      obtain ⟨u, hrun, hu⟩ := h.run_polling hp seen (w :: rest) (by simpa using hans)
        (fun x hx => hun x (List.mem_append_left _ hx)) (hwindow (Nat.lt_succ_self _))
      obtain ⟨-, hends⟩ := hu.step_unseen hp (hun w (List.mem_append_right _ (List.mem_singleton_self w)))
      obtain ⟨v, hv, hstep⟩ := hends (by omega)
      exact ⟨_, (run_add hrun 1).trans (run_one hstep), rfl, rfl, rfl, rfl, rfl, hv.answers, hv.reads, hv.now⟩
  · intro k hk
    have htake : (seen.take k).length = k := List.length_take_of_le hk.le
    obtain ⟨u, hrun, hu⟩ := h.run_polling hp (seen.take k) (seen.drop k ++ rest)
      (by rw [← List.append_assoc, List.take_append_drop, hans]) (fun x hx => hun x (List.mem_of_mem_take hx))
      (by rw [htake]; exact hwindow hk)
    rw [htake] at hrun hu
    exact ⟨u, hrun, hu.step, hu.busy, hu.reads⟩

end Sys2Proof.Safety
end

section
/-! PROOFS. The two transactions in their shortest form on the oracle bench, and the host operations whole
(42_read_transaction.md R128, 43_write_transaction.md R138, 44_derived_operations.md section 3). -/

namespace Sys2Proof.Safety

open Sys2Proof.Machine

/-- Between two steps of an operation on the oracle bench. -/
structure Alone (s : State) : Prop where
  bench : OracleBench s
  start : s.start = false

theorem Alone.walked {s : State} (h : Alone s) (ops : List PortEvent) (left : List Nat) (st : Step) (d : Nat) :
    Alone (s.walked ops left st d) :=
  ⟨h.bench, h.start⟩

theorem Alone.pollNext {s : State} (h : Alone s) (st : Step) : Alone (pollNext st s) := by
  cases st <;> exact ⟨h.bench, h.start⟩

theorem Alone.step_engine {s t : State} (h : Alone s) (hidle : s.step ≠ .idle)
    (hx : exec (stepInstr s.step) s = .next t) (ht : Alone t) : step s = .next t := by
  rw [h.bench.1.step_engine hidle hx ht.bench.1, ← ht.start]

/-- From `s`, one step for each port operation of `ops` leads to step `st`, the answers `left` still to come. -/
def Proceeds (s : State) (ops : List PortEvent) (left : List Nat) (st : Step) : Prop :=
  ∃ d, Sys2Proof.core.run ops.length s = .next (s.walked ops left st d)

section
variable {s : State} {ops : List PortEvent} {left : List Nat} {st target : Step}

theorem Proceeds.start (s : State) : Proceeds s [] s.env.answers s.step :=
  ⟨s.deadline, by simp [State.walked, State.withAnswers, State.advanced, Host.Core.run]⟩

/-- A poll whose first read shows its flag. -/
theorem Proceeds.sees {w : Nat} (h : Proceeds s ops (w :: left) st) (hs : Alone s) (hp : isPollStep st = true)
    (hfe : feFits st s.fe = true) (hsat : pollSatisfied s.cfg st (lowByte w) = true) :
    ∃ d, Sys2Proof.core.run (ops.length + 1) s =
      .next (pollNext st (s.walked (readOp .sc (lowByte w) :: ops) left st d)) := by
  obtain ⟨d, hrun⟩ := h
  have hv := hs.walked ops (w :: left) st d
  have hread := hv.bench.ioRead_eq (w := w) (rest := left) rfl .sc
  obtain ⟨i, hi, hx⟩ := exec_pollStep (s := s.walked ops (w :: left) st d) hp hfe hread
  have hinstr : i = stepInstr st := by
    rw [decode_stepCode] at hi
    cases hi; rfl
  subst hinstr
  have hsat' : pollSatisfied (s.walked ops (w :: left) st d).cfg st (lowByte w) = true := hsat
  have hstep : (s.walked ops (w :: left) st d).step = st := rfl
  rw [hstep, if_pos hsat', State.walked_walked] at hx
  exact ⟨d, (run_add hrun 1).trans
    (run_one (hv.step_engine (isPollStep_ne_idle hp) hx ((hs.walked _ _ _ _).pollNext _)))⟩

/-- A poll that goes on to the next step. -/
theorem Proceeds.poll {w : Nat} (h : Proceeds s ops (w :: left) st) (hs : Alone s) (hp : isPollStep st = true)
    (hfe : feFits st s.fe = true) (hsat : pollSatisfied s.cfg st (lowByte w) = true)
    (hnext : pollNext st = State.goto target) : Proceeds s (readOp .sc (lowByte w) :: ops) left target := by
  obtain ⟨d, hrun⟩ := h.sees hs hp hfe hsat
  rw [hnext] at hrun
  exact ⟨d, hrun⟩

/-- A step that sends a byte. -/
theorem Proceeds.send {p : Port} {b : Byte} (h : Proceeds s ops left st) (hs : Alone s)
    (hsend : ∀ d, sendOf (s.walked ops left st d) = some (p, b, target)) (hst : st ≠ .idle) :
    Proceeds s (writeOp p b :: ops) left target := by
  obtain ⟨d, hrun⟩ := h
  have hv := hs.walked ops left st d
  obtain ⟨i, hi, hx⟩ := exec_sendOf (hsend d) (hv.bench.ioWrite_eq p b)
  have hinstr : i = stepInstr st := by
    rw [decode_stepCode] at hi
    cases hi; rfl
  subst hinstr
  have hanswers : (s.walked ops left st d).env.answers = left := rfl
  rw [hanswers, State.walked_walked] at hx
  exact ⟨_, (run_add hrun 1).trans (run_one (hv.step_engine hst hx ⟨hs.bench, hs.start⟩))⟩

end

/-! ### The transactions -/

theorem pollSatisfied_lowByte {cfg : Params} {st : Step} (hst : st ≠ .r5) {w : Nat}
    (h : ibfFlag cfg (BitVec.ofNat 8 w) = false) : pollSatisfied cfg st (lowByte w) = true := by
  rw [pollSatisfied_of_ne_r5 hst, lowByte, h]
  rfl

/-- The write transaction in its shortest form: seven port operations, and the operation ends with `Ok`
(43_write_transaction.md R138). -/
theorem Alone.run_write {s : State} {s1 s2 s3 s4 : Nat} {rest : List Nat} (h : Alone s)
    (hk : s.cfg.k = Constants.source) (hst : s.step = .w1) (hfe : (writeCompletion s.fe).isSome = true)
    (hans : s.env.answers = s1 :: s2 :: s3 :: s4 :: rest)
    (h1 : ibfFlag s.cfg (BitVec.ofNat 8 s1) = false) (h2 : ibfFlag s.cfg (BitVec.ofNat 8 s2) = false)
    (h3 : ibfFlag s.cfg (BitVec.ofNat 8 s3) = false) (h4 : ibfFlag s.cfg (BitVec.ofNat 8 s4) = false) :
    ∃ d, Sys2Proof.core.run 7 s = .next
      ((s.walked (writeTrace s.offset s.wdata (BitVec.ofNat 8 s1) (BitVec.ofNat 8 s2) (BitVec.ofNat 8 s3)
        (BitVec.ofNat 8 s4)) rest .w7 d).complete .ok .none 0) := by
  have hcmd : s.cfg.k.cmdWrite = 0x81 := by rw [hk]; rfl
  have hw1 : Proceeds s [] (s1 :: s2 :: s3 :: s4 :: rest) .w1 := hans ▸ hst ▸ Proceeds.start s
  have hw2 := hw1.poll h rfl hfe (pollSatisfied_lowByte (by decide) h1) (target := .w2) rfl
  have hw3 := hw2.send h (p := .sc) (b := 0x81) (target := .w3) (fun _ => by rw [← hcmd]; rfl) nofun
  have hw4 := hw3.poll h rfl hfe (pollSatisfied_lowByte (by decide) h2) (target := .w4) rfl
  have hw5 := hw4.send h (p := .data) (b := s.offset) (target := .w5) (fun _ => rfl) nofun
  have hw6 := hw5.poll h rfl hfe (pollSatisfied_lowByte (by decide) h3) (target := .w6) rfl
  have hw7 := hw6.send h (p := .data) (b := s.wdata) (target := .w7) (fun _ => rfl) nofun
  exact hw7.sees h rfl hfe (pollSatisfied_lowByte (by decide) h4)

/-- A completion of a read leaves the bench as it is. -/
theorem Alone.readCompletion {fe : Fe} {finish : State → State} (hfinish : readCompletion fe = some finish) {v : State}
    (h : Alone v) : Alone (finish v) := by
  cases fe <;> cases hfinish
  case temp => dsimp only; split <;> exact ⟨h.bench, h.start⟩
  all_goals exact ⟨h.bench, h.start⟩

theorem Alone.withRdata {s : State} (h : Alone s) (b : Byte) : Alone { s with rdata := b } := ⟨h.bench, h.start⟩

/-- `R6` takes the next answer's low byte, `R7` reads the status once more and runs the completion
(42_read_transaction.md R126, R127). -/
theorem Proceeds.closes {s : State} {ops : List PortEvent} {w w' : Nat} {left : List Nat} {finish : State → State}
    (h : Proceeds s ops (w :: w' :: left) .r6) (hs : Alone s) (hfinish : Machine.readCompletion s.fe = some finish) :
    ∃ d, Sys2Proof.core.run (ops.length + 2) s = .next (finish (({ s with rdata := lowByte w } : State).walked
      (readOp .sc (lowByte w') :: readOp .data (lowByte w) :: ops) left .r7 d)) := by
  obtain ⟨d, hrun⟩ := h
  have hr6 := hs.walked ops (w :: w' :: left) .r6 d
  have hr7 := (hs.withRdata (lowByte w)).walked (readOp .data (lowByte w) :: ops) (w' :: left) .r7 d
  have htake : exec .stepR6 (s.walked ops (w :: w' :: left) .r6 d) =
      .next (portStep (fun b t => ({ t with rdata := b } : State).goto .r7)
        ((s.walked ops (w :: w' :: left) .r6 d).ioRead .engine .data)) := rfl
  rw [hr6.bench.ioRead_eq (w := w) (rest := w' :: left) rfl, State.walked_walked] at htake
  have hread := hr7.bench.ioRead_eq (w := w') (rest := left) rfl .sc
  rw [State.walked_walked] at hread
  have hclose := hr7.step_engine nofun (exec_stepR7_ok hread hfinish)
    (Alone.readCompletion hfinish ((hs.withRdata _).walked _ _ _ _))
  exact ⟨d, (run_add ((run_add hrun 1).trans (run_one (hr6.step_engine nofun htake hr7))) 1).trans (run_one hclose)⟩

/-- The read transaction in its shortest form: seven port operations, and the completion of the operation in progress
runs on the byte taken (42_read_transaction.md R127, R128). -/
theorem Alone.run_read {s : State} {s1 s2 s3 data s4 : Nat} {rest : List Nat} {finish : State → State} (h : Alone s)
    (hk : s.cfg.k = Constants.source) (hst : s.step = .r1) (hfinish : Machine.readCompletion s.fe = some finish)
    (hans : s.env.answers = s1 :: s2 :: s3 :: data :: s4 :: rest)
    (h1 : ibfFlag s.cfg (BitVec.ofNat 8 s1) = false) (h2 : ibfFlag s.cfg (BitVec.ofNat 8 s2) = false)
    (h3 : obfFlag s.cfg (BitVec.ofNat 8 s3) = true) :
    ∃ d, Sys2Proof.core.run 7 s = .next (finish
      (({ s with rdata := BitVec.ofNat 8 data } : State).walked
        (readTrace s.offset (BitVec.ofNat 8 s1) (BitVec.ofNat 8 s2) (BitVec.ofNat 8 s3) (BitVec.ofNat 8 data)
          (BitVec.ofNat 8 s4)) rest .r7 d)) := by
  have hcmd : s.cfg.k.cmdRead = 0x80 := by rw [hk]; rfl
  have hfe : (Machine.readCompletion s.fe).isSome = true := by rw [hfinish]; rfl
  have hr1 : Proceeds s [] (s1 :: s2 :: s3 :: data :: s4 :: rest) .r1 := hans ▸ hst ▸ Proceeds.start s
  have hr2 := hr1.poll h rfl hfe (pollSatisfied_lowByte (by decide) h1) (target := .r2) rfl
  have hr3 := hr2.send h (p := .sc) (b := 0x80) (target := .r3) (fun _ => by rw [← hcmd]; rfl) nofun
  have hr4 := hr3.poll h rfl hfe (pollSatisfied_lowByte (by decide) h2) (target := .r4) rfl
  have hr5 := hr4.send h (p := .data) (b := s.offset) (target := .r5) (fun _ => rfl) nofun
  have hr6 := hr5.poll h rfl hfe h3 (target := .r6) rfl
  exact hr6.closes h hfinish

/-! ### Accepting -/

/-- The accept step of a request on a bench. -/
theorem Bench.step_accepts {s t : State} {i : Instr} (hi : i.channel = .req)
    (hreq : Requested (reqOf s.cfg i) s) (hx : exec i s = .next t) (ht : Bench t) :
    step s = .next { t with start := false } := by
  rw [hreq.step_eq (decode_reqOf hi s.cfg) hx, ht.betweenSteps_eq]

theorem Requested.acceptWith {s : State} {w : BitVec 19} (h : Requested w s) (f : State → State) :
    s.acceptWith f = f s := by
  obtain ⟨hidle, -, hbusy, -⟩ := h
  exact State.acceptWith_idle hidle hbusy f

/-- A reading operation from the strobe to the completion of its transaction. -/
theorem OracleBench.run_readOperation {s : State} {i : Instr} {fe : Fe} {o : Byte} {s1 s2 s3 data s4 : Nat}
    {rest : List Nat} {finish : State → State} (h : OracleBench s) (hk : s.cfg.k = Constants.source)
    (hi : i.channel = .req) (hreq : Requested (reqOf s.cfg i) s) (hx : exec i s = .next (s.beginRead fe o))
    (hfinish : readCompletion fe = some finish) (hans : s.env.answers = s1 :: s2 :: s3 :: data :: s4 :: rest)
    (h1 : ibfFlag s.cfg (BitVec.ofNat 8 s1) = false) (h2 : ibfFlag s.cfg (BitVec.ofNat 8 s2) = false)
    (h3 : obfFlag s.cfg (BitVec.ofNat 8 s3) = true) :
    ∃ d, Sys2Proof.core.run 8 s = .next (finish
      (({ s.beginRead fe o with start := false, rdata := BitVec.ofNat 8 data } : State).walked
        (readTrace o (BitVec.ofNat 8 s1) (BitVec.ofNat 8 s2) (BitVec.ofNat 8 s3) (BitVec.ofNat 8 data)
          (BitVec.ofNat 8 s4)) rest .r7 d)) := by
  have hstep := Bench.step_accepts hi hreq hx h.1
  obtain ⟨d, hrun⟩ :=
    Alone.run_read (s := { s.beginRead fe o with start := false }) ⟨h, rfl⟩ hk rfl hfinish hans h1 h2 h3
  exact ⟨d, (run_succ_of_step (M := Sys2Proof.core) hstep 7).trans hrun⟩

/-- A writing operation from the strobe to its end. -/
theorem OracleBench.run_writeOperation {s : State} {i : Instr} {fe : Fe} {o v : Byte} {s1 s2 s3 s4 : Nat}
    {rest : List Nat} (h : OracleBench s) (hk : s.cfg.k = Constants.source)
    (hi : i.channel = .req) (hreq : Requested (reqOf s.cfg i) s) (hx : exec i s = .next (s.beginWrite fe o v))
    (hfe : (writeCompletion fe).isSome = true) (hans : s.env.answers = s1 :: s2 :: s3 :: s4 :: rest)
    (h1 : ibfFlag s.cfg (BitVec.ofNat 8 s1) = false) (h2 : ibfFlag s.cfg (BitVec.ofNat 8 s2) = false)
    (h3 : ibfFlag s.cfg (BitVec.ofNat 8 s3) = false) (h4 : ibfFlag s.cfg (BitVec.ofNat 8 s4) = false) :
    ∃ t, Sys2Proof.core.run 8 s = .next t ∧ t.step = .idle ∧ t.busy = false ∧ t.done = true ∧
      t.res = packRes .ok .none 0 ∧ t.env.answers = rest ∧ t.now = s.now + 7 * s.cfg.portOpTicks ∧
      t.trace = writeTrace o v (BitVec.ofNat 8 s1) (BitVec.ofNat 8 s2) (BitVec.ofNat 8 s3) (BitVec.ofNat 8 s4) ++
        s.trace := by
  have hstep := Bench.step_accepts hi hreq hx h.1
  obtain ⟨d, hrun⟩ :=
    Alone.run_write (s := { s.beginWrite fe o v with start := false }) ⟨h, rfl⟩ hk rfl hfe hans h1 h2 h3 h4
  exact ⟨_, (run_succ_of_step (M := Sys2Proof.core) hstep 7).trans hrun, rfl, rfl, rfl, rfl, rfl, rfl, rfl⟩

/-- A fan RPM read between its two transactions: busy without a result, the low byte kept, the high byte's offset set
(44_derived_operations.md R143, 70_reset_and_hazards.md R233). -/
structure SecondHalf (s : State) (lo : Byte) (ops : List PortEvent) (left : List Nat) (u : State) : Prop where
  alone : Alone u
  step : u.step = .r1
  fe : u.fe = .rpmMsb
  busy : u.busy = true
  done : u.done = false
  cfg : u.cfg = s.cfg
  offset : u.offset = s.cfg.k.regRpmMsb
  lsb : u.lsb = lo
  answers : u.env.answers = left
  trace : u.trace = ops ++ s.trace

theorem OracleBench.run_firstHalf {s : State} {x y : Byte} {s1 s2 s3 lo s4 : Nat} {left : List Nat} (h : OracleBench s)
    (hk : s.cfg.k = Constants.source) (hreq : Requested (reqOf s.cfg (.fanRpmRead x y)) s)
    (hfront : s.cfg.hasFrontEnd = true) (hans : s.env.answers = s1 :: s2 :: s3 :: lo :: s4 :: left)
    (h1 : ibfFlag s.cfg (BitVec.ofNat 8 s1) = false) (h2 : ibfFlag s.cfg (BitVec.ofNat 8 s2) = false)
    (h3 : obfFlag s.cfg (BitVec.ofNat 8 s3) = true) :
    ∃ u, Sys2Proof.core.run 8 s = .next u ∧
      SecondHalf s (BitVec.ofNat 8 lo) (readTrace 0x84 (BitVec.ofNat 8 s1) (BitVec.ofNat 8 s2) (BitVec.ofNat 8 s3)
        (BitVec.ofNat 8 lo) (BitVec.ofNat 8 s4)) left u := by
  have hx : exec (.fanRpmRead x y) s = .next (s.beginRead .rpmLsb 0x84) := by
    rw [exec_fanRpmRead, hreq.acceptWith, acceptRpm_frontEnd hfront, hk]; rfl
  obtain ⟨_, hrun⟩ := h.run_readOperation hk rfl hreq hx rfl hans h1 h2 h3
  exact ⟨_, hrun, ⟨h, rfl⟩, rfl, rfl, rfl, rfl, rfl, rfl, rfl, rfl, rfl⟩

/-! ### The obligations -/

/-- Settles O34: the completion of a raw read reports the byte taken. -/
theorem readRegisterWholeOperation : Obligations.ReadRegisterWholeOperation := by
  unfold Obligations.ReadRegisterWholeOperation
  intro s o x s1 s2 s3 d s4 rest h hk hreq hans h1 h2 h3
  have hx : exec (.readRegister o x) s = .next (s.beginRead .rawRd o) := by
    rw [exec_readRegister, hreq.acceptWith]; rfl
  obtain ⟨_, hrun⟩ := h.run_readOperation hk rfl hreq hx rfl hans h1 h2 h3
  refine ⟨_, hrun, rfl, rfl, rfl, ?_, rfl, rfl, rfl⟩
  have hvalue : zext16 (BitVec.ofNat 8 d) = BitVec.ofNat 16 (d % 256) := by
    rw [zext16_eq_ofNat, BitVec.toNat_ofNat]
  exact congrArg (packRes .ok .none) hvalue

/-- Settles O35: both operations run the write transaction on their operands. -/
theorem writeOperationsWhole : Obligations.WriteOperationsWhole := by
  unfold Obligations.WriteOperationsWhole
  intro s o v x l s1 s2 s3 s4 rest h hk hans h1 h2 h3 h4
  refine ⟨fun hreq => ?_, fun hreq hfront hl => ?_⟩
  · have hx : exec (.writeRegister o v) s = .next (s.beginWrite .rawWr o v) := by
      rw [exec_writeRegister, hreq.acceptWith]; rfl
    exact h.run_writeOperation hk rfl hreq hx rfl hans h1 h2 h3 h4
  · have hlegal : legalLevel s.cfg.k l = true := by rw [hk]; exact (legalLevel_source_iff l).mpr hl
    have hx : exec (.fanLevelWrite x l) s = .next (s.beginWrite .level 0x2F l) := by
      rw [exec_fanLevelWrite, hreq.acceptWith, acceptLevel_legal hfront hlegal, hk]; rfl
    exact h.run_writeOperation hk rfl hreq hx rfl hans h1 h2 h3 h4

/-- Settles O36: the completion of a temperature read compares the byte with the sentinel and extends its sign. -/
theorem tempReadWholeOperation : Obligations.TempReadWholeOperation := by
  unfold Obligations.TempReadWholeOperation
  intro s i x s1 s2 s3 d s4 rest h hk hreq hfront hi hans h1 h2 h3
  have hlegal : legalSensor s.cfg.k i = true := by rw [hk, legalSensor_source, decide_eq_true hi]
  have hx : exec (.tempRead i x) s = .next (s.beginRead .temp (BitVec.ofNat 8 (0x78 + i.toNat))) := by
    rw [exec_tempRead, hreq.acceptWith, acceptTemp_legal hfront hlegal, hk, tempOffset_source]
  obtain ⟨_, hrun⟩ := h.run_readOperation hk rfl hreq hx rfl hans h1 h2 h3
  have habsent : BitVec.ofNat 8 d = s.cfg.k.tempAbsent ↔ d % 256 = 0x80 := by
    rw [hk, ← BitVec.toNat_inj, BitVec.toNat_ofNat]; rfl
  by_cases hd : d % 256 = 0x80
  · have hrun' := hrun.trans (congrArg _ (if_pos (habsent.mpr hd)))
    exact ⟨_, hrun', rfl, rfl, rfl, fun _ => rfl, absurd hd, rfl⟩
  · have hrun' := hrun.trans (congrArg _ (if_neg (mt habsent.mp hd)))
    refine ⟨_, hrun', rfl, rfl, rfl, fun hd' => absurd hd' hd, fun _ => ⟨?_, ?_, ?_⟩, rfl⟩
    · exact resKind_packRes _ _ _
    · exact resStage_packRes _ _ _
    · have hsigned := rpmAndTemperatureValues.2 (BitVec.ofNat 8 d)
      rw [BitVec.toNat_ofNat] at hsigned
      exact (congrArg BitVec.toInt (resData_packRes _ _ _)).trans hsigned

/-- Settles O37: the completion of the first half begins the second with the engine busy, and the second combines both
bytes. -/
theorem fanRpmReadWholeOperation : Obligations.FanRpmReadWholeOperation := by
  unfold Obligations.FanRpmReadWholeOperation
  intro s x y s1 s2 s3 lo s4 s5 s6 s7 hi s8 rest h hk hreq hfront hans h1 h2 h3 h5 h6 h7
  obtain ⟨u, hfirst, hu⟩ := h.run_firstHalf hk hreq hfront hans h1 h2 h3
  refine ⟨⟨u, hfirst, hu.busy, hu.done⟩, ?_⟩
  rw [← hu.cfg] at h5 h6 h7
  obtain ⟨_, hsecond⟩ := hu.alone.run_read (by rw [hu.cfg]; exact hk) hu.step (congrArg readCompletion hu.fe) hu.answers
    h5 h6 h7
  refine ⟨_, (run_add hfirst 7).trans hsecond, rfl, rfl, rfl, resKind_packRes _ _ _, resStage_packRes _ _ _, ?_, ?_⟩
  · have hvalue := rpmAndTemperatureValues.1 (BitVec.ofNat 8 hi) (BitVec.ofNat 8 lo)
    rw [BitVec.toNat_ofNat, BitVec.toNat_ofNat, ← hk, ← hu.cfg, ← hu.lsb] at hvalue
    exact (congrArg BitVec.toNat (resData_packRes _ _ _)).trans hvalue
  · have hoffset : u.offset = 0x85 := by rw [hu.offset, hk]; rfl
    rw [List.append_assoc, ← hu.trace, ← hoffset]
    rfl

end Sys2Proof.Safety
end

section
/-! PROOFS. The control loop: its cycle, and that it waits for its own operation only (45_consumers.md R163 to R167). -/

namespace Sys2Proof.Machine

open Sys2Proof.Safety

/-! ### The loop's timer and its reaction, case by case -/

section
variable {s : State} {l : ControlLoop}

theorem State.loopTimer_cycle (hl : s.loop = some l) (hphase : l.phase = .waiting) (hbusy : s.busy = false)
    (hstart : s.start = false) (hstop : l.stop = false) :
    s.loopTimer = s.loopSubmit l .reading (.tempRead l.config.sensor 0) := by
  simp [State.loopTimer, hl, hphase, hbusy, hstart, hstop]

theorem State.loopTimer_shutdown (hl : s.loop = some l) (hphase : l.phase = .waiting) (hbusy : s.busy = false)
    (hstart : s.start = false) (hstop : l.stop = true) :
    s.loopTimer = s.loopSubmit l .restoring (.fanLevelWrite 0 s.cfg.k.levelAuto) := by
  simp [State.loopTimer, hl, hphase, hbusy, hstart, hstop]

/-- The loop sees a result of its own: the engine is idle and done, and no request is strobed. -/
structure State.ResultSeen (s : State) (l : ControlLoop) : Prop where
  loop : s.loop = some l
  busy : s.busy = false
  done : s.done = true
  start : s.start = false

variable (h : s.ResultSeen l)
include h

theorem State.ResultSeen.reading_failed (hphase : l.phase = .reading) (hres : tempReading s.res = none) :
    s.loopReact = { s with loop := some { l with phase := .waiting } } := by
  simp [State.loopReact, h.loop, h.busy, h.done, h.start, hphase, hres]

theorem State.ResultSeen.reading_unchanged {reading : Option Int} (hphase : l.phase = .reading)
    (hres : tempReading s.res = some reading)
    (hlevel : l.lastLevel = some (curveLevel s.cfg.k l.config.curve reading)) :
    s.loopReact = { s with loop := some { l with phase := .waiting } } := by
  simp [State.loopReact, h.loop, h.busy, h.done, h.start, hphase, hres, hlevel]

theorem State.ResultSeen.reading_changed {reading : Option Int} (hphase : l.phase = .reading)
    (hres : tempReading s.res = some reading)
    (hlevel : l.lastLevel ≠ some (curveLevel s.cfg.k l.config.curve reading)) :
    s.loopReact = s.loopSubmit l (.writing (curveLevel s.cfg.k l.config.curve reading))
      (.fanLevelWrite 0 (curveLevel s.cfg.k l.config.curve reading)) := by
  simp [State.loopReact, h.loop, h.busy, h.done, h.start, hphase, hres, hlevel]

theorem State.ResultSeen.writing {level : Byte} (hphase : l.phase = .writing level) :
    s.loopReact = { s with loop := some { l with
      phase := .waiting
      lastLevel := if resKind s.res = 0 then some level else l.lastLevel } } := by
  have hok : kindOfCode (resKind s.res) = some .ok ↔ resKind s.res = 0 := kindOfCode_eq_ok_iff _
  by_cases hkind : resKind s.res = 0
  · simp only [State.loopReact, h.loop, h.busy, h.done, h.start, hphase, and_self, if_true, if_pos (hok.mpr hkind),
      if_pos hkind]
  · simp only [State.loopReact, h.loop, h.busy, h.done, h.start, hphase, and_self, if_true, if_neg (mt hok.mp hkind),
      if_neg hkind]

theorem State.ResultSeen.restoring (hphase : l.phase = .restoring) :
    s.loopReact = { s with loop := some { l with phase := .stopped }, palReady := false } := by
  simp [State.loopReact, h.loop, h.busy, h.done, h.start, hphase]

/-- A loop that waits for its timer, or is over, reacts to nothing. -/
theorem State.ResultSeen.idle (hphase : l.phase = .waiting ∨ l.phase = .stopped) : s.loopReact = s := by
  obtain hphase | hphase := hphase <;> simp [State.loopReact, h.loop, hphase]

end

/-! ### The loop's request and its operation -/

theorem loopOperation_congr {s t : State} {l : ControlLoop} (hfe : t.fe = s.fe) (hwdata : t.wdata = s.wdata)
    (hcfg : t.cfg = s.cfg) (h : loopOperation s l) : loopOperation t l := by
  unfold loopOperation at *
  rw [hfe, hwdata, hcfg]
  exact h

/-- The loop's request asks for the operation it waits for, or is rejected (44_derived_operations.md R144 to R147). -/
theorem loopOperation_of_exec {s u : State} {l : ControlLoop} {i : Instr} (hreq : loopRequest s.cfg.k l = some i)
    (hidle : s.step = .idle) (hbusy : s.busy = false) (h : exec i s = .next u) :
    u.busy = true ∧ loopOperation u l ∨ u.busy = false ∧ u.done = true := by
  have haccept := State.acceptWith_idle hidle hbusy
  have htemp (sensor : Byte) : acceptTemp sensor s = s.reject ∨ ∃ o, acceptTemp sensor s = s.beginRead .temp o := by
    unfold acceptTemp
    split
    · exact .inr ⟨_, rfl⟩
    · exact .inl rfl
  have hlevel (level : Byte) :
      acceptLevel level s = s.reject ∨ ∃ o, acceptLevel level s = s.beginWrite .level o level := by
    unfold acceptLevel
    split
    · exact .inr ⟨_, rfl⟩
    · exact .inl rfl
  unfold loopRequest at hreq
  unfold loopOperation
  cases hphase : l.phase <;> rw [hphase] at hreq <;> cases hreq <;> cases h <;> rw [haccept]
  case reading =>
    obtain hu | ⟨o, hu⟩ := htemp l.config.sensor <;> rw [hu]
    · exact .inr ⟨hbusy, rfl⟩
    · exact .inl ⟨rfl, rfl⟩
  case writing level =>
    obtain hu | ⟨o, hu⟩ := hlevel level <;> rw [hu]
    · exact .inr ⟨hbusy, rfl⟩
    · exact .inl ⟨rfl, rfl, rfl⟩
  case restoring =>
    obtain hu | ⟨o, hu⟩ := hlevel s.cfg.k.levelAuto <;> rw [hu]
    · exact .inr ⟨hbusy, rfl⟩
    · exact .inl ⟨rfl, rfl, rfl⟩

/-- The operation the loop waits for is no fan RPM read. -/
theorem loopOperation_ne_rpmLsb {s : State} {l : ControlLoop} (hreq : loopRequest s.cfg.k l ≠ none)
    (h : loopOperation s l) : s.fe ≠ .rpmLsb := by
  unfold loopRequest at hreq
  unfold loopOperation at h
  cases hphase : l.phase <;> rw [hphase] at hreq h
  case reading => rw [h]; exact nofun
  case writing => rw [h.1]; exact nofun
  case restoring => rw [h.1]; exact nofun
  case waiting | stopped => exact absurd rfl hreq

/-- What an instruction leaves a loop that waits for a result: its own operation in progress, or a result. -/
def LoopServed (s : State) : Prop :=
  ∀ l, s.loop = some l → loopRequest s.cfg.k l ≠ none →
    s.busy = true ∧ loopOperation s l ∨ s.busy = false ∧ s.done = true

/-- A step of the loop's operation goes on with it or ends it. -/
theorem Performs.loopServed {i : Instr} {s u : State} {l : ControlLoop} (h : Performs i s u) (hbusy : s.busy = true)
    (hreq : loopRequest s.cfg.k l ≠ none) (hop : loopOperation s l) :
    u.busy = true ∧ loopOperation u l ∨ u.busy = false ∧ u.done = true := by
  cases h with
  | rests => exact .inl ⟨hbusy, hop⟩
  | accepts _ _ hfree => exact nomatch hbusy.symm.trans hfree
  | other _ _ _ r =>
    exact .inl ⟨(s.portOp_busy .other r).trans hbusy,
      loopOperation_congr (s.portOp_fe .other r) (s.portOp_wdata .other r) (s.portOp_cfg .other r) hop⟩
  | engine _ _ h =>
    set r := engineRequest s.step s
    have hport := loopOperation_congr (s.portOp_fe .engine r) (s.portOp_wdata .engine r) (s.portOp_cfg .engine r) hop
    have hportBusy := (s.portOp_busy .engine r).trans hbusy
    cases h with
    | stays => exact .inl ⟨hportBusy, hport⟩
    | ends => exact .inr ⟨rfl, rfl⟩
    | goes | takes => exact .inl ⟨hportBusy, loopOperation_congr rfl rfl rfl hport⟩
    | repeats _ hfe => exact absurd ((s.portOp_fe .engine r).symm.trans hfe) (loopOperation_ne_rpmLsb hreq hop)

theorem loopServed_of_exec {i : Instr} {s u : State} (hcons : Consistent s) (hs : LoopFits s) (hi : s.fetch = .ok i)
    (h : exec i s = .next u) : LoopServed u := by
  intro l hl hreq
  have hsame := (exec_cases h).sameHost
  rw [hsame.loop] at hl
  rw [hsame.cfg] at hreq
  obtain ⟨hown, hwaits⟩ := hs l hl
  cases hstrobes : l.strobes with
  | true =>
    obtain ⟨hstart, hbusy, j, hj, hword⟩ := hown hstrobes
    have hidle : s.step = .idle := by
      have hfits := hcons.busy_iff
      rw [hbusy] at hfits
      simpa using hfits.symm
    have hch : j.channel = .req := by
      unfold loopRequest at hj
      split at hj <;> cases hj <;> rfl
    have hfetch := State.fetch_of_accepts (s.accepts_iff.mpr ⟨hidle, hbusy, hstart⟩)
    rw [hi, hword, decode_reqOf hch] at hfetch
    cases hfetch
    exact loopOperation_of_exec hj hidle hbusy h
  | false =>
    obtain ⟨hbusy, hop⟩ := hwaits hstrobes hreq
    exact (Performs.of_fetch hi h).loopServed hbusy hreq hop

/-! ### Between two steps -/

/-- A loop that has just submitted has its own request strobed at an idle engine. -/
theorem loopFits_loopSubmit {s : State} (l : ControlLoop) {phase : LoopPhase} {i : Instr} (hbusy : s.busy = false)
    (hreq : loopRequest s.cfg.k { l with phase := phase, strobes := true } = some i) :
    LoopFits (s.loopSubmit l phase i) := by
  rintro _ ⟨⟩
  exact ⟨fun _ => ⟨rfl, hbusy, i, hreq, rfl⟩, nofun⟩

/-- A loop that waits for no result fits any state. -/
theorem loopFits_of_no_request {s : State} {l : ControlLoop} (hl : s.loop = some l) (hstrobes : l.strobes = false)
    (hreq : loopRequest s.cfg.k l = none) : LoopFits s := by
  intro l' hl'
  rw [hl] at hl'
  cases hl'
  exact ⟨fun h => (nomatch hstrobes.symm.trans h), fun _ hsome => absurd hreq hsome⟩

theorem loopFits_of_no_loop {s : State} (hl : s.loop = none) : LoopFits s := by
  intro l h
  rw [hl] at h
  cases h

theorem State.endStrobe_loop_strobes {s : State} {l : ControlLoop} (h : s.endStrobe.loop = some l) :
    l.strobes = false := by
  obtain ⟨_, -, rfl⟩ := Option.map_eq_some_iff.mp h
  rfl

theorem LoopServed.endStrobe {s : State} (h : LoopServed s) : LoopServed s.endStrobe := by
  intro l hl hreq
  obtain ⟨l', hl', rfl⟩ := Option.map_eq_some_iff.mp hl
  exact h l' hl' hreq

/-- The reaction to a result leaves the loop waiting for its timer, over, or with its next request strobed. -/
theorem LoopServed.loopReact {s : State} (h : LoopServed s) (hstart : s.start = false)
    (hstrobes : ∀ l, s.loop = some l → l.strobes = false) : LoopFits s.loopReact := by
  cases hl : s.loop with
  | none =>
    have hreact : s.loopReact = s := by simp [State.loopReact, hl]
    rw [hreact]
    exact loopFits_of_no_loop hl
  | some l =>
    have hown := hstrobes l hl
    by_cases hseen : s.busy = false ∧ s.done = true
    · have hres : s.ResultSeen l := ⟨hl, hseen.1, hseen.2, hstart⟩
      cases hphase : l.phase with
      | waiting =>
        rw [hres.idle (.inl hphase)]
        exact loopFits_of_no_request hl hown (by simp [loopRequest, hphase])
      | stopped =>
        rw [hres.idle (.inr hphase)]
        exact loopFits_of_no_request hl hown (by simp [loopRequest, hphase])
      | restoring => rw [hres.restoring hphase]; exact loopFits_of_no_request rfl hown rfl
      | writing level => rw [hres.writing hphase]; exact loopFits_of_no_request rfl hown rfl
      | reading =>
        cases hreading : tempReading s.res with
        | none => rw [hres.reading_failed hphase hreading]; exact loopFits_of_no_request rfl hown rfl
        | some reading =>
          by_cases hlevel : l.lastLevel = some (curveLevel s.cfg.k l.config.curve reading)
          · rw [hres.reading_unchanged hphase hreading hlevel]; exact loopFits_of_no_request rfl hown rfl
          · rw [hres.reading_changed hphase hreading hlevel]; exact loopFits_loopSubmit l hseen.1 rfl
    · have hreact : s.loopReact = s := by
        have hno : ¬(s.busy = false ∧ s.done = true ∧ s.start = false) := fun ⟨hb, hd, _⟩ => hseen ⟨hb, hd⟩
        simp only [State.loopReact, hl, if_neg hno]
      rw [hreact]
      intro l' hl'
      have hown' := hstrobes l' hl'
      exact ⟨fun hs => (nomatch hown'.symm.trans hs), fun _ hreq => (h l' hl' hreq).resolve_right hseen⟩

theorem loopFits_elapse {s : State} (h : LoopFits s) (n : Nat) : LoopFits (s.elapse n) := by
  unfold State.elapse
  split <;> exact h

/-- A reset keeps a request that the loop has strobed and takes the operation it waits for (70_reset_and_hazards.md
R222). -/
theorem loopFits_reset {s : State} (h : LoopFits s) (reached : Bool) : LoopFits (s.engineReset reached).loopReset := by
  cases hl : s.loop with
  | none =>
    have hnone : (s.engineReset reached).loopReset = s.engineReset reached := by
      have hloop : (s.engineReset reached).loop = none := hl
      simp [State.loopReset, hloop]
    rw [hnone]
    exact loopFits_of_no_loop hl
  | some l =>
    obtain ⟨hown, -⟩ := h l hl
    obtain ⟨hkept, hwhy⟩ | ⟨hwaiting, hstrobes, -⟩ := (s.engineReset reached).loopReset_cases l hl
    · rw [hkept]
      cases hstrobes : l.strobes with
      | true =>
        obtain ⟨hstart, -, hrequest⟩ := hown hstrobes
        intro l' hl'
        obtain rfl : l = l' := Option.some_inj.mp (hl.symm.trans hl')
        exact ⟨fun _ => ⟨hstart, rfl, hrequest⟩, fun hno => nomatch hstrobes.symm.trans hno⟩
      | false =>
        have hstopped := hwhy.resolve_left (by simp [hstrobes])
        exact loopFits_of_no_request hl hstrobes (by simp [loopRequest, hstopped])
    · rw [hwaiting]
      exact loopFits_of_no_request rfl hstrobes rfl

/-- Another host's request does not overwrite the loop's (20_memory.md R54). -/
theorem State.applyEvent_request {s : State} {l : ControlLoop} (hl : s.loop = some l) (req : BitVec 19) (start : Bool) :
    s.applyEvent (.request req start) = if l.strobes then s else { s with req := req, start := start } := by
  simp only [State.applyEvent, State.loopStrobes, hl]

theorem loopFits_applyEvent {s : State} (h : LoopFits s) (e : EnvEvent) : LoopFits (s.applyEvent e) := by
  cases e with
  | writeTimeout ticks => exact h
  | palReady ready => exact h
  | drive c => exact h
  | reset reached => exact loopFits_reset h reached
  | request req start =>
    cases hl : s.loop with
    | none => exact loopFits_of_no_loop (by simp [State.applyEvent, State.loopStrobes, hl])
    | some l =>
      rw [State.applyEvent_request hl]
      split
      · exact h
      · next hno =>
        intro l' hl'
        obtain rfl : l = l' := Option.some_inj.mp (hl.symm.trans hl')
        exact ⟨fun hstrobes => absurd hstrobes hno, (h l hl).2⟩
  | loopStart config acquired =>
    simp only [State.applyEvent, State.loopStart]
    split <;> split
    · exact loopFits_of_no_request rfl rfl rfl
    · exact h
    · exact loopFits_of_no_request rfl rfl rfl
    · exact h
  | loopTimer =>
    simp only [State.applyEvent, State.loopTimer]
    split
    · exact h
    · next l _ =>
      split
      · next hidle => split <;> exact loopFits_loopSubmit l hidle.2.1 rfl
      · exact h
  | loopStop =>
    simp only [State.applyEvent, State.loopStop]
    split
    · exact h
    · next l hl =>
      rintro _ ⟨⟩
      exact h l hl

theorem loopFits_foldl_applyEvent {s : State} (h : LoopFits s) (batch : List EnvEvent) :
    LoopFits (batch.foldl State.applyEvent s) := by
  induction batch generalizing s with
  | nil => exact h
  | cons e batch ih => exact ih (loopFits_applyEvent h e)

theorem loopFits_applyBatch {s : State} (h : LoopFits s) : LoopFits s.applyBatch := by
  unfold State.applyBatch
  split
  · exact h
  · next batch rest _ =>
    have htaken : LoopFits { s with inputs := rest } := h
    exact loopFits_foldl_applyEvent htaken batch

theorem LoopServed.betweenSteps {s : State} (h : LoopServed s) : LoopFits s.betweenSteps :=
  loopFits_applyBatch (loopFits_elapse
    (h.endStrobe.loopReact s.endStrobe_start fun _ hl => State.endStrobe_loop_strobes hl) 0)

theorem LoopServed.retire {s u : State} (h : LoopServed u) : LoopServed (s.retire u) := by
  obtain hr | ⟨hr, -⟩ := s.retire_cases u <;> rw [hr] <;> exact h

end Sys2Proof.Machine

namespace Sys2Proof.Safety

open Sys2Proof.Machine

/-- Settles O56: the timer and a result of the loop's own each have one reaction in each phase. -/
theorem controlLoopWritesOnlyOnChange : Obligations.ControlLoopWritesOnlyOnChange := by
  unfold Obligations.ControlLoopWritesOnlyOnChange
  intro s l hl hbusy hstart
  have hseen (hdone : s.done = true) : s.ResultSeen l := ⟨hl, hbusy, hdone, hstart⟩
  refine ⟨fun hphase hstop => ?_, fun hphase hstop => ?_, fun reading hphase hdone hres => ⟨fun hlevel => ?_,
    fun hlevel => ?_⟩, fun hphase hdone hres => (hseen hdone).reading_failed hphase hres,
    fun level hphase hdone => (hseen hdone).writing hphase⟩
  · rw [State.loopTimer_cycle hl hphase hbusy hstart hstop]; exact ⟨rfl, rfl⟩
  · rw [State.loopTimer_shutdown hl hphase hbusy hstart hstop]; exact ⟨rfl, rfl⟩
  · rw [(hseen hdone).reading_unchanged hphase hres hlevel]; exact hstart
  · rw [(hseen hdone).reading_changed hphase hres hlevel]; exact ⟨rfl, rfl⟩

/-- Settles O60: a strobed request of the loop is the next instruction, its operation is nobody else's, and it ends in a
result the loop reacts to or in a reset that ends its waiting. -/
theorem controlLoopHoldsTheHandleAndItsRequest : Obligations.ControlLoopHoldsTheHandleAndItsRequest := by
  unfold Obligations.ControlLoopHoldsTheHandleAndItsRequest
  refine ⟨fun s c hl => ?_, fun s l hl hphase hbusy hdone hstart =>
    State.ResultSeen.restoring ⟨hl, hbusy, hdone, hstart⟩ hphase, fun s l req start hl hstrobes => ⟨?_,
    fun hstart hidle hbusy => State.fetch_of_accepts (s.accepts_iff.mpr ⟨hidle, hbusy, hstart⟩)⟩,
    fun s l b hl hstrobes hphase => ?_, loopFits_of_no_loop rfl, fun s t hcons hs h => ?_⟩
  · simp [State.loopStart, hl]
  · rw [State.applyEvent_request hl, if_pos hstrobes]
  · have hreset : s.applyEvent (.reset b) = (s.engineReset b).loopReset := rfl
    obtain ⟨-, hwhy⟩ | ⟨hwaiting, -, -⟩ := (s.engineReset b).loopReset_cases l hl
    · exact absurd hwhy (by simp [hstrobes, hphase])
    · rw [hreset, hwaiting]
      exact ⟨rfl, rfl⟩
  · obtain ⟨i, u, hi, hu, rfl⟩ := step_exec h
    exact (loopServed_of_exec hcons hs hi hu).retire.betweenSteps

end Sys2Proof.Safety
end
